-- ==== Sys2Proof/Word.lean ====
section
/-! DEFINITION. The words of the machine: the instruction word, the 64-bit special registers, the byte, and the cell
that holds one register of any file (the widest register is 1024 bits, 10_state.md R24). -/
namespace Sys2Proof

/-- A 32-bit instruction word or special register slot (30_encoding.md R140, 10_state.md R36). -/
abbrev Word := BitVec 32

/-- A byte of memory (20_memory.md R100). -/
abbrev Byte := BitVec 8

/-- The cell of one register of a register file; a register narrower than the cell has its upper bits zero (R24). -/
abbrev Reg := BitVec 1024

/-- A 6-bit register field of an instruction (R23). -/
abbrev RegNum := BitVec 6

end Sys2Proof
end

