-- ==== Sys2Proof/Config.lean ====
section
/-! DEFINITION. What an implementation fixes: the parameter table of 00_scope.md R9 as a record of plain data, the
reference configuration REF32, and the free values of the model (opaque constants nothing can evaluate). -/
namespace Sys2Proof

/-- A machine mode, the operand width of one instruction (10_state.md R20, Table 1). -/
inductive MMode where
  /-- B, 8 bits, code 000. -/
  | b
  /-- H, 16 bits, code 001. -/
  | h
  /-- W, 32 bits, code 010. -/
  | w
  /-- D, 64 bits, code 011. -/
  | d
  /-- Q, 128 bits, code 100. -/
  | q
  /-- "1", 256 bits, code 101. -/
  | s1
  /-- "2", 512 bits, code 110. -/
  | s2
  /-- "4", 1024 bits, code 111. -/
  | s4
deriving DecidableEq, Repr

/-- The 53 native mnemonics (R3). -/
inductive Mnemonic where
  | mov
  | add | sub | mul | div
  | sl | sr | rl | rr
  | and | nand | or | xor
  | sb | rb | tb | rvb
  | fadd | fsub | fmul | fdiv | frem | fcmp | fsqr | fabs | fneg | frnd | ff2i | fi2f | fext | fsqz
  | mad | msu | fmad | fmsu
  | jmp | bz | bnz | bm | bmz | bnm | bnmo | bl | blz | bnl | bnlo | bo | bno
  | ret | reti | rete | retn | wait
deriving DecidableEq, Repr

/-- The assigned FPU types of IMP[19:16] (R40); the unassigned codes have no constructor. -/
inductive FpuType where
  | none | half | single | double | quadruple | octuple
  | extHalf | extSingle | extDouble | extQuadruple | extOctuple
deriving DecidableEq, Repr

/-- A binary floating-point format: one sign bit, then the exponent, then the fraction (45_floating_point.md R312). -/
structure FpFmt where
  /-- The exponent bits. -/
  expBits : Nat
  /-- The fraction bits. -/
  fracBits : Nat
deriving DecidableEq, Repr

/-- The byte order of memory (20_memory.md R104). -/
inductive Endian where
  | little | big
deriving DecidableEq, Repr

/-- The value an ADD or SUB writes on an impotent OVERFLOW (41_integer_arith.md R236, parameter OVF_WRITEBACK). -/
inductive OvfWriteback where
  | max | wrap
deriving DecidableEq, Repr

/-- The kind of a memory access (20_memory.md R112). -/
inductive AccessKind where
  | fetch | read | write
deriving DecidableEq, Repr

/-- The optional FP register file (10_state.md R64). -/
structure FprFile where
  /-- NFPR. -/
  count : Nat
  /-- FPRW, in bits. -/
  width : Nat
deriving DecidableEq, Repr

/-- The optional DSP register file (10_state.md R63). -/
structure DspFile where
  /-- NDSP. -/
  count : Nat
  /-- DSPW, a Table 1 width. -/
  width : MMode
deriving DecidableEq, Repr

/-- An implementation-specific register file, reached by inter-register transfers on AUXCODEs the manual leaves free
(10_state.md R65, 30_encoding.md R147, parameter ExtraFiles; log 38). -/
structure ExtraFile where
  /-- How many registers it has. -/
  count : Nat
  /-- Their width, a Table 1 width. -/
  width : MMode
  /-- The AUXCODE of REG <- file, `none` where the implementation has no such transfer. -/
  toGpr : Option (BitVec 4)
  /-- The AUXCODE of file <- REG, `none` where the implementation has no such transfer. -/
  fromGpr : Option (BitVec 4)
deriving DecidableEq, Repr

/-- One entry of the address map `Translate` (20_memory.md R112): it covers the addresses `lo` to `hi` of the listed
kinds of access, of one process or of all, in one operating mode or in both. -/
structure MapEntry where
  lo : Nat
  hi : Nat
  /-- The process, `none` for every process. -/
  pid : Option (BitVec 64)
  /-- The operating mode (`true` system), `none` for both. -/
  system : Option Bool
  fetch : Bool
  read : Bool
  write : Bool
  /-- The physical address `lo` goes to, or `none` where the access is answered with an error. -/
  target : Option Nat
deriving DecidableEq, Repr

/-- The implementation parameters (00_scope.md R9). -/
structure Config where
  /-- GPRW, the visible GPR width. -/
  gprw : MMode
  /-- GPRW_PHYS, the physical GPR width in bits. -/
  gprwPhys : Nat
  /-- NGPR. -/
  ngpr : Nat
  /-- NBANKS. -/
  nbanks : Nat
  /-- ALUW. -/
  aluw : MMode
  /-- NATMODE. -/
  natMode : MMode
  /-- MAXXFER. -/
  maxXfer : MMode
  /-- PAW, in bits. -/
  paw : Nat
  /-- PIDW, in bits. -/
  pidw : Nat
  /-- SEP_ID. -/
  sepId : Bool
  /-- FPU_TYPE. -/
  fpu : FpuType
  /-- FPFMT, the widest supported FP format. -/
  fpFmt : FpFmt
  /-- HAS_FPR, NFPR, FPRW. -/
  fpr : Option FprFile
  /-- HAS_DSP, NDSP, DSPW. -/
  dsp : Option DspFile
  /-- ExtraFiles, at most four (R65). -/
  extraFiles : List ExtraFile
  /-- HAS_MUL. -/
  hasMul : Bool
  /-- HAS_DIV. -/
  hasDiv : Bool
  /-- ARCHNUM. -/
  archNum : BitVec 20
  /-- ENDIAN. -/
  endian : Endian
  /-- The mnemonics the implementation does not provide (part of `Implemented`, R159). -/
  absent : List Mnemonic
  /-- The mnemonic and mode pairs wider than NATMODE that it does provide, FF2I, FI2F, FEXT and FSQZ among them (part of
  `Implemented`, R22). -/
  wider : List (Mnemonic × MMode)
  /-- WAITW, in bits. -/
  waitw : Nat
  /-- OVF_WRITEBACK. -/
  ovfWriteback : OvfWriteback
  /-- CID after reset (R532). -/
  cidReset : BitVec 32
  /-- Translate: the first entry that covers an access decides, identity where none does (R112). -/
  translation : List MapEntry
  /-- The exceptions 22 to 63 the implementation can raise from hardware (60_exceptions.md R476). -/
  hwExceptions : List Nat
deriving DecidableEq, Repr

/-- The mnemonics REF32 provides in mode D besides B, H and W: the integer arithmetic/logic ones (92_eei_decisions.md
D34) but MUL, DIV, MAD and MSU, which 00_scope.md R9 keeps to B, H and W (log 16). -/
def Config.ref32Wider : List Mnemonic :=
  [.add, .sub, .sl, .sr, .rl, .rr, .and, .nand, .or, .xor, .sb, .rb, .tb, .rvb]

/-- The reference configuration REF32 (00_scope.md R9, 92_eei_decisions.md D34; log 16). -/
def Config.ref32 : Config where
  gprw := .w
  gprwPhys := 32
  ngpr := 64
  nbanks := 1
  aluw := .w
  natMode := .w
  maxXfer := .d
  paw := 32
  pidw := 1
  sepId := false
  fpu := .single
  fpFmt := { expBits := 8, fracBits := 23 }
  fpr := none
  dsp := none
  extraFiles := []
  hasMul := true
  hasDiv := true
  archNum := 0
  endian := .little
  absent := []
  wider := Config.ref32Wider.map fun mn => (mn, .d)
  waitw := 32
  ovfWriteback := .max
  cidReset := 0
  translation := []
  hwExceptions := []

/-- FREE VALUE: the bit pattern an FP instruction delivers when it rounds under an unassigned code of FP ROUNDING MODE
(45_floating_point.md R313, 93_implementation_defined.md "any value"); the argument counts the steps. -/
opaque Config.freeFpPattern : Nat → BitVec 1024

/-- FREE VALUE: the integer an FP conversion delivers when it rounds under an unassigned code (R313, R326). -/
opaque Config.freeInteger : Nat → Int

/-- FREE VALUE: what the rest of DESTINATION receives where REG <- FPR moves fewer bits than the mode has
(40_data_transfer.md R214, 93_implementation_defined.md; log 17). -/
opaque Config.freeTransfer : Nat → BitVec 1024

/-- FREE VALUE: a register of a file of a stuck core, by step, file and register (60_exceptions.md R474; log 39). -/
opaque Config.freeRegister : Nat → Nat → Nat → BitVec 1024

/-- FREE VALUE: a special register or IC of a stuck core, by step and register (R474; log 39). -/
opaque Config.freeSpecial : Nat → Nat → BitVec 64

/-- FREE VALUE: the memory of a stuck core, as the bytes that are not zero (R474; log 39). -/
opaque Config.freeMemory : Nat → List (Nat × BitVec 8)

/-- FREE VALUE: the sign of an exact zero sum of operands of opposite signs, where the spec states none (log 12). -/
opaque Config.freeSign : Nat → Bool

end Sys2Proof
end

