-- ==== Sys2Proof/Syntax.lean ====
section
/-! DEFINITION. The instructions of the PEAKTOP ISA: one constructor per row of spec/opcode_table.json, in the
table's order, with the operands the row's form uses (30_encoding.md R142 to R155).  Naming: suffix `R` is the register
form and `I` the immediate form of an arithmetic/logic row; `R` and `O` the register and the offset form of a control
row.  Operands: `m` MMODE, `u` the U bit, `d` DESTINATION, `r` SOURCE, `r2` SOURCE2, `a` the A bit, `p` the P bit,
`arg` ARGUMENT, `loc` LOCATION, `base` BASE, `idx` INDEX, `s` the source register of an inter-register transfer. -/
namespace Sys2Proof

/-- What a memory transfer with register or indexed addressing does to the INDEX register (R146). -/
inductive Update where
  | keep | postInc | postDec | preInc | preDec
deriving DecidableEq, Repr

/-- The three addressing forms of a memory transfer (R143, R205). -/
inductive Addr where
  /-- `MEM[BASE + OFFSET12]`. -/
  | disp (base : RegNum) (off : BitVec 12)
  /-- `MEM[INDEX]`, with an index update. -/
  | reg (idx : RegNum) (upd : Update)
  /-- `MEM[BASE + INDEX]`, with an index update. -/
  | indexed (base idx : RegNum) (upd : Update)
deriving DecidableEq, Repr

/-- The twelve branch conditions, named as the mnemonics (R372). -/
inductive Cond where
  | z | nz | m | mz | nm | nmo | l | lz | nl | nlo | o | no
deriving DecidableEq, Repr

/-- The instructions: one constructor per row of spec/opcode_table.json. -/
inductive Instr where
  -- ADD (R232)
  | addR (m : MMode) (u : Bool) (d : RegNum) (r : RegNum)
  | addI (m : MMode) (u : Bool) (d : RegNum) (imm : BitVec 14)
  -- SUB (R233)
  | subR (m : MMode) (u : Bool) (d : RegNum) (r : RegNum)
  | subI (m : MMode) (u : Bool) (d : RegNum) (imm : BitVec 14)
  -- MUL (R234)
  | mulR (m : MMode) (u : Bool) (d : RegNum) (r : RegNum)
  | mulI (m : MMode) (u : Bool) (d : RegNum) (imm : BitVec 14)
  -- DIV (R235)
  | divR (m : MMode) (u : Bool) (d : RegNum) (r : RegNum)
  | divI (m : MMode) (u : Bool) (d : RegNum) (imm : BitVec 14)
  -- SL (R251)
  | slR (m : MMode) (u : Bool) (d : RegNum) (r : RegNum)
  | slI (m : MMode) (u : Bool) (d : RegNum) (imm : BitVec 14)
  -- SR (R252)
  | srR (m : MMode) (u : Bool) (d : RegNum) (r : RegNum)
  | srI (m : MMode) (u : Bool) (d : RegNum) (imm : BitVec 14)
  -- RL (R253)
  | rlR (m : MMode) (d : RegNum) (r : RegNum)
  | rlI (m : MMode) (d : RegNum) (imm : BitVec 14)
  -- RR (R254)
  | rrR (m : MMode) (d : RegNum) (r : RegNum)
  | rrI (m : MMode) (d : RegNum) (imm : BitVec 14)
  -- AND (R271)
  | andR (m : MMode) (d : RegNum) (r : RegNum)
  | andI (m : MMode) (u : Bool) (d : RegNum) (imm : BitVec 14)
  -- NAND (R272)
  | nandR (m : MMode) (d : RegNum) (r : RegNum)
  | nandI (m : MMode) (u : Bool) (d : RegNum) (imm : BitVec 14)
  -- OR (R273)
  | orR (m : MMode) (d : RegNum) (r : RegNum)
  | orI (m : MMode) (u : Bool) (d : RegNum) (imm : BitVec 14)
  -- XOR (R274)
  | xorR (m : MMode) (d : RegNum) (r : RegNum)
  | xorI (m : MMode) (u : Bool) (d : RegNum) (imm : BitVec 14)
  -- SB (R291)
  | sbR (m : MMode) (d : RegNum) (r : RegNum)
  | sbI (m : MMode) (d : RegNum) (imm : BitVec 14)
  -- RB (R292)
  | rbR (m : MMode) (d : RegNum) (r : RegNum)
  | rbI (m : MMode) (d : RegNum) (imm : BitVec 14)
  -- TB (R293)
  | tbR (m : MMode) (d : RegNum) (r : RegNum)
  | tbI (m : MMode) (d : RegNum) (imm : BitVec 14)
  -- RVB (R294)
  | rvbR (m : MMode) (d : RegNum) (r : RegNum)
  | rvbI (m : MMode) (d : RegNum) (imm : BitVec 14)
  -- MAD (R351)
  | madR (m : MMode) (u : Bool) (d : RegNum) (r : RegNum) (r2 : RegNum)
  | madI (m : MMode) (u : Bool) (d : RegNum) (r : RegNum) (imm : BitVec 8)
  -- MSU (R352)
  | msuR (m : MMode) (u : Bool) (d : RegNum) (r : RegNum) (r2 : RegNum)
  | msuI (m : MMode) (u : Bool) (d : RegNum) (r : RegNum) (imm : BitVec 8)
  -- FADD (R316)
  | fadd (d : RegNum) (r : RegNum)
  -- FSUB (R317)
  | fsub (d : RegNum) (r : RegNum)
  -- FMUL (R318)
  | fmul (d : RegNum) (r : RegNum)
  -- FDIV (R319)
  | fdiv (d : RegNum) (r : RegNum)
  -- FREM (R320)
  | frem (d : RegNum) (r : RegNum)
  -- FCMP (R321)
  | fcmp (d : RegNum) (r : RegNum)
  -- FSQR (R322)
  | fsqr (d : RegNum)
  -- FABS (R323)
  | fabs (d : RegNum)
  -- FNEG (R324)
  | fneg (d : RegNum)
  -- FRND (R325)
  | frnd (d : RegNum)
  -- FMAD (R353)
  | fmad (d : RegNum) (r : RegNum) (r2 : RegNum)
  -- FMSU (R354)
  | fmsu (d : RegNum) (r : RegNum) (r2 : RegNum)
  -- FF2I (R326)
  | ff2i (m : MMode) (u : Bool) (d : RegNum)
  -- FI2F (R327)
  | fi2f (m : MMode) (u : Bool) (d : RegNum)
  -- FEXT (R328)
  | fext (m : MMode) (d : RegNum)
  -- FSQZ (R329)
  | fsqz (m : MMode) (d : RegNum)
  -- JMP (R371)
  | jmpR (a : Bool) (p : Bool) (loc : RegNum)
  | jmpO (a : Bool) (p : Bool) (off : BitVec 20)
  -- BZ (R373)
  | bzR (m : MMode) (a : Bool) (p : Bool) (arg : RegNum) (loc : RegNum)
  | bzO (m : MMode) (a : Bool) (p : Bool) (arg : RegNum) (off : BitVec 14)
  -- BNZ (R374)
  | bnzR (m : MMode) (a : Bool) (p : Bool) (arg : RegNum) (loc : RegNum)
  | bnzO (m : MMode) (a : Bool) (p : Bool) (arg : RegNum) (off : BitVec 14)
  -- BM (R375)
  | bmR (m : MMode) (a : Bool) (p : Bool) (arg : RegNum) (loc : RegNum)
  | bmO (m : MMode) (a : Bool) (p : Bool) (arg : RegNum) (off : BitVec 14)
  -- BMZ (R376)
  | bmzR (m : MMode) (a : Bool) (p : Bool) (arg : RegNum) (loc : RegNum)
  | bmzO (m : MMode) (a : Bool) (p : Bool) (arg : RegNum) (off : BitVec 14)
  -- BNM (R377)
  | bnmR (m : MMode) (a : Bool) (p : Bool) (arg : RegNum) (loc : RegNum)
  | bnmO (m : MMode) (a : Bool) (p : Bool) (arg : RegNum) (off : BitVec 14)
  -- BNMO (R378)
  | bnmoR (m : MMode) (a : Bool) (p : Bool) (arg : RegNum) (loc : RegNum)
  | bnmoO (m : MMode) (a : Bool) (p : Bool) (arg : RegNum) (off : BitVec 14)
  -- BL (R379)
  | blR (m : MMode) (a : Bool) (p : Bool) (arg : RegNum) (loc : RegNum)
  | blO (m : MMode) (a : Bool) (p : Bool) (arg : RegNum) (off : BitVec 14)
  -- BLZ (R380)
  | blzR (m : MMode) (a : Bool) (p : Bool) (arg : RegNum) (loc : RegNum)
  | blzO (m : MMode) (a : Bool) (p : Bool) (arg : RegNum) (off : BitVec 14)
  -- BNL (R381)
  | bnlR (m : MMode) (a : Bool) (p : Bool) (arg : RegNum) (loc : RegNum)
  | bnlO (m : MMode) (a : Bool) (p : Bool) (arg : RegNum) (off : BitVec 14)
  -- BNLO (R382)
  | bnloR (m : MMode) (a : Bool) (p : Bool) (arg : RegNum) (loc : RegNum)
  | bnloO (m : MMode) (a : Bool) (p : Bool) (arg : RegNum) (off : BitVec 14)
  -- BO (R383)
  | boR (m : MMode) (a : Bool) (p : Bool) (arg : RegNum) (loc : RegNum)
  | boO (m : MMode) (a : Bool) (p : Bool) (arg : RegNum) (off : BitVec 14)
  -- BNO (R384)
  | bnoR (m : MMode) (a : Bool) (p : Bool) (arg : RegNum) (loc : RegNum)
  | bnoO (m : MMode) (a : Bool) (p : Bool) (arg : RegNum) (off : BitVec 14)
  -- RET (R401)
  | ret (p : Bool)
  -- RETI (R402)
  | reti (p : Bool)
  -- RETE (R403)
  | rete (p : Bool)
  | reteR (p : Bool) (loc : RegNum)
  | reteO (p : Bool) (off : BitVec 20)
  -- RETN (R404)
  | retn (p : Bool)
  | retnR (p : Bool) (loc : RegNum)
  | retnO (p : Bool) (off : BitVec 20)
  -- WAIT (R405)
  | waitR (loc : RegNum)
  | waitO (off : BitVec 20)
  -- MOV (R201)
  | movLoadDisp (m : MMode) (d : RegNum) (base : RegNum) (off : BitVec 12)
  -- MOV (R207)
  | movLoadLockedDisp (m : MMode) (d : RegNum) (base : RegNum) (off : BitVec 12)
  -- MOV (R202)
  | movStoreDisp (m : MMode) (d : RegNum) (base : RegNum) (off : BitVec 12)
  -- MOV (R208)
  | movStoreCondDisp (m : MMode) (d : RegNum) (base : RegNum) (off : BitVec 12)
  -- MOV (R203)
  | movLoadReg (m : MMode) (d : RegNum) (idx : RegNum)
  | movLoadRegPostInc (m : MMode) (d : RegNum) (idx : RegNum)
  | movLoadRegPostDec (m : MMode) (d : RegNum) (idx : RegNum)
  | movLoadRegPreInc (m : MMode) (d : RegNum) (idx : RegNum)
  | movLoadRegPreDec (m : MMode) (d : RegNum) (idx : RegNum)
  | movLoadIdx (m : MMode) (d : RegNum) (base : RegNum) (idx : RegNum)
  | movLoadIdxPostInc (m : MMode) (d : RegNum) (base : RegNum) (idx : RegNum)
  | movLoadIdxPostDec (m : MMode) (d : RegNum) (base : RegNum) (idx : RegNum)
  | movLoadIdxPreInc (m : MMode) (d : RegNum) (base : RegNum) (idx : RegNum)
  | movLoadIdxPreDec (m : MMode) (d : RegNum) (base : RegNum) (idx : RegNum)
  -- MOV (R207)
  | movLoadLockedReg (m : MMode) (d : RegNum) (idx : RegNum)
  | movLoadLockedRegPostInc (m : MMode) (d : RegNum) (idx : RegNum)
  | movLoadLockedRegPostDec (m : MMode) (d : RegNum) (idx : RegNum)
  | movLoadLockedRegPreInc (m : MMode) (d : RegNum) (idx : RegNum)
  | movLoadLockedRegPreDec (m : MMode) (d : RegNum) (idx : RegNum)
  | movLoadLockedIdx (m : MMode) (d : RegNum) (base : RegNum) (idx : RegNum)
  | movLoadLockedIdxPostInc (m : MMode) (d : RegNum) (base : RegNum) (idx : RegNum)
  | movLoadLockedIdxPostDec (m : MMode) (d : RegNum) (base : RegNum) (idx : RegNum)
  | movLoadLockedIdxPreInc (m : MMode) (d : RegNum) (base : RegNum) (idx : RegNum)
  | movLoadLockedIdxPreDec (m : MMode) (d : RegNum) (base : RegNum) (idx : RegNum)
  -- MOV (R204)
  | movStoreReg (m : MMode) (d : RegNum) (idx : RegNum)
  | movStoreRegPostInc (m : MMode) (d : RegNum) (idx : RegNum)
  | movStoreRegPostDec (m : MMode) (d : RegNum) (idx : RegNum)
  | movStoreRegPreInc (m : MMode) (d : RegNum) (idx : RegNum)
  | movStoreRegPreDec (m : MMode) (d : RegNum) (idx : RegNum)
  | movStoreIdx (m : MMode) (d : RegNum) (base : RegNum) (idx : RegNum)
  | movStoreIdxPostInc (m : MMode) (d : RegNum) (base : RegNum) (idx : RegNum)
  | movStoreIdxPostDec (m : MMode) (d : RegNum) (base : RegNum) (idx : RegNum)
  | movStoreIdxPreInc (m : MMode) (d : RegNum) (base : RegNum) (idx : RegNum)
  | movStoreIdxPreDec (m : MMode) (d : RegNum) (base : RegNum) (idx : RegNum)
  -- MOV (R208)
  | movStoreCondReg (m : MMode) (d : RegNum) (idx : RegNum)
  | movStoreCondRegPostInc (m : MMode) (d : RegNum) (idx : RegNum)
  | movStoreCondRegPostDec (m : MMode) (d : RegNum) (idx : RegNum)
  | movStoreCondRegPreInc (m : MMode) (d : RegNum) (idx : RegNum)
  | movStoreCondRegPreDec (m : MMode) (d : RegNum) (idx : RegNum)
  | movStoreCondIdx (m : MMode) (d : RegNum) (base : RegNum) (idx : RegNum)
  | movStoreCondIdxPostInc (m : MMode) (d : RegNum) (base : RegNum) (idx : RegNum)
  | movStoreCondIdxPostDec (m : MMode) (d : RegNum) (base : RegNum) (idx : RegNum)
  | movStoreCondIdxPreInc (m : MMode) (d : RegNum) (base : RegNum) (idx : RegNum)
  | movStoreCondIdxPreDec (m : MMode) (d : RegNum) (base : RegNum) (idx : RegNum)
  -- MOV (R209)
  | movRegReg (m : MMode) (d : RegNum) (s : RegNum)
  -- MOV (R210)
  | movRegSpc (m : MMode) (d : RegNum) (s : RegNum)
  -- MOV (R211)
  | movSpcReg (m : MMode) (d : RegNum) (s : RegNum)
  -- MOV (R212)
  | movRegDsp (m : MMode) (d : RegNum) (s : RegNum)
  -- MOV (R213)
  | movDspReg (m : MMode) (d : RegNum) (s : RegNum)
  -- MOV (R214)
  | movRegFpr (m : MMode) (d : RegNum) (s : RegNum)
  -- MOV (R215)
  | movFprReg (m : MMode) (d : RegNum) (s : RegNum)
  -- MOV (R216)
  | movImm (m : MMode) (u : Bool) (d : RegNum) (imm : BitVec 18)
deriving DecidableEq, Repr

end Sys2Proof
end

