-- ==== Sys2Proof/WellFormed.lean ====
section
/-! DEFINITION. Which instructions have an encoding.  Every operand field takes every value of its width but one: the
MMODE of FEXT and FSQZ is one of H, W, D, Q, 1 (30_encoding.md R152, 90_conflicts.md C7). -/
namespace Sys2Proof

/-- The modes FEXT and FSQZ take: 001 to 101 (R152). -/
def MMode.isFpWidth (m : MMode) : Bool :=
  match m with
  | .h | .w | .d | .q | .s1 => true
  | .b | .s2 | .s4 => false

/-- An instruction the encoding tables have a word for. -/
def WellFormed (i : Instr) : Prop :=
  match i with
  | .fext m _ => m.isFpWidth = true
  | .fsqz m _ => m.isFpWidth = true
  | _ => True

end Sys2Proof
end

