-- ==== Sys2Proof/Decode.lean ====
section
/-! DEFINITION. Decoding a 32-bit word (30_encoding.md) and encoding an instruction.  A word is first cut into the
fields every format shares (R142, R148, R153), then decoded by group; a word outside the tables is refused with the
item of R156 it falls under.  Bits a form does not use are ignored (R157) and encoded as zero. -/
namespace Sys2Proof

/-- The fields of an instruction word common to the three formats (R141, R142, R148, R153). -/
structure Fields where
  /-- Bits 31:30, the group. -/
  group : BitVec 2
  /-- Bits 29:27, MMODE. -/
  mmode : BitVec 3
  /-- Bit 26: O, I or O. -/
  b26 : Bool
  /-- Bit 25: U, U or A. -/
  b25 : Bool
  /-- Bit 24: T, F or P. -/
  b24 : Bool
  /-- Bits 23:18: DESTINATION, ARGUMENT or OFFSET20HI. -/
  dest : BitVec 6
  /-- Bits 17:14: AUXCODE. -/
  aux : BitVec 4
  /-- Bits 13:12: I8HI where it is used. -/
  hi2 : BitVec 2
  /-- Bits 11:6: BASE, SOURCE or LOCATION. -/
  mid : BitVec 6
  /-- Bits 5:0: INDEX, SOURCE2 or I8LO. -/
  lo : BitVec 6
deriving DecidableEq, Repr

/-- The fields of a word. -/
def Fields.ofWord (w : Word) : Fields where
  group := w.extractLsb' 30 2
  mmode := w.extractLsb' 27 3
  b26 := w.getLsbD 26
  b25 := w.getLsbD 25
  b24 := w.getLsbD 24
  dest := w.extractLsb' 18 6
  aux := w.extractLsb' 14 4
  hi2 := w.extractLsb' 12 2
  mid := w.extractLsb' 6 6
  lo := w.extractLsb' 0 6

/-- The word of the fields. -/
def Fields.toWord (f : Fields) : Word :=
  f.group ++ (f.mmode ++ (BitVec.ofBool f.b26 ++ (BitVec.ofBool f.b25 ++ (BitVec.ofBool f.b24 ++
    (f.dest ++ (f.aux ++ (f.hi2 ++ (f.mid ++ f.lo))))))))

/-- IMMEDIATE14, OFFSET14, OFFSET20LO: bits 13:0 (R148, R153). -/
def Fields.imm14 (f : Fields) : BitVec 14 := f.hi2 ++ (f.mid ++ f.lo)

/-- IMMEDIATE8 = I8HI ‖ I8LO (R150). -/
def Fields.imm8 (f : Fields) : BitVec 8 := f.hi2 ++ f.lo

/-- IMMEDIATE18: bits 17:0 (R145). -/
def Fields.imm18 (f : Fields) : BitVec 18 := f.aux ++ (f.hi2 ++ (f.mid ++ f.lo))

/-- OFFSET12 = OFFSET12HI ‖ OFFSET12LO (R144). -/
def Fields.off12 (f : Fields) : BitVec 12 := f.aux ++ (f.hi2 ++ f.lo)

/-- OFFSET20 = OFFSET20HI ‖ OFFSET20LO (R154). -/
def Fields.off20 (f : Fields) : BitVec 20 := f.dest ++ (f.hi2 ++ (f.mid ++ f.lo))

/-- The MMODE code of a machine mode (10_state.md R20, Table 1). -/
def MMode.code (m : MMode) : BitVec 3 :=
  match m with
  | .b => 0 | .h => 1 | .w => 2 | .d => 3 | .q => 4 | .s1 => 5 | .s2 => 6 | .s4 => 7

/-- The machine mode of an MMODE code (R20). -/
def MMode.ofCode (c : BitVec 3) : MMode :=
  match c with
  | 0 => .b | 1 => .h | 2 => .w | 3 => .d | 4 => .q | 5 => .s1 | 6 => .s2 | _ => .s4

/-- Why a word is no instruction: the items of R156. -/
inductive DecodeError where
  /-- Item 1: a memory transfer with an unassigned AUXCODE. -/
  | memoryAuxcode
  /-- Item 2: T = 1 with L = 0. -/
  | storeOfInterRegister
  /-- Item 3: an inter-register transfer with U = 1. -/
  | atomicInterRegister
  /-- Item 4: an inter-register AUXCODE without a register file. -/
  | interRegisterAuxcode
  /-- Item 5: an integer operation with AUXCODE 1101. -/
  | integerAuxcode
  /-- Item 6: a floating-point word that violates a fixed bit. -/
  | fpFixedBit
  /-- Item 7: a control word with AUXCODE 1111. -/
  | controlAuxcode
  /-- Item 8: JMP with MMODE other than 000. -/
  | jumpMode
  /-- Item 9: a return with an unassigned MMODE, O, A combination. -/
  | returnForm
  /-- Item 10: WAIT with MMODE, A or P other than zero. -/
  | waitForm
  /-- Fewer than four bytes were given. -/
  | tooShort
deriving DecidableEq, Repr

/-- The index update of AUXCODE[2:0] of a memory transfer (R146). -/
def Update.ofCode (c : BitVec 3) : Option Update :=
  match c with
  | 0 => some .keep | 1 => some .postInc | 2 => some .postDec | 5 => some .preInc | 6 => some .preDec
  | _ => none

/-- AUXCODE[2:0] of an index update (R146). -/
def Update.code (u : Update) : BitVec 3 :=
  match u with
  | .keep => 0 | .postInc => 1 | .postDec => 2 | .preInc => 5 | .preDec => 6

/-- The load of an addressing form, load-locked where `atomic` (R143, R146, R207). -/
def Instr.load (atomic : Bool) (m : MMode) (d : RegNum) (addr : Addr) : Instr :=
  match atomic, addr with
  | false, .disp base off => .movLoadDisp m d base off
  | false, .reg idx .keep => .movLoadReg m d idx
  | false, .reg idx .postInc => .movLoadRegPostInc m d idx
  | false, .reg idx .postDec => .movLoadRegPostDec m d idx
  | false, .reg idx .preInc => .movLoadRegPreInc m d idx
  | false, .reg idx .preDec => .movLoadRegPreDec m d idx
  | false, .indexed base idx .keep => .movLoadIdx m d base idx
  | false, .indexed base idx .postInc => .movLoadIdxPostInc m d base idx
  | false, .indexed base idx .postDec => .movLoadIdxPostDec m d base idx
  | false, .indexed base idx .preInc => .movLoadIdxPreInc m d base idx
  | false, .indexed base idx .preDec => .movLoadIdxPreDec m d base idx
  | true, .disp base off => .movLoadLockedDisp m d base off
  | true, .reg idx .keep => .movLoadLockedReg m d idx
  | true, .reg idx .postInc => .movLoadLockedRegPostInc m d idx
  | true, .reg idx .postDec => .movLoadLockedRegPostDec m d idx
  | true, .reg idx .preInc => .movLoadLockedRegPreInc m d idx
  | true, .reg idx .preDec => .movLoadLockedRegPreDec m d idx
  | true, .indexed base idx .keep => .movLoadLockedIdx m d base idx
  | true, .indexed base idx .postInc => .movLoadLockedIdxPostInc m d base idx
  | true, .indexed base idx .postDec => .movLoadLockedIdxPostDec m d base idx
  | true, .indexed base idx .preInc => .movLoadLockedIdxPreInc m d base idx
  | true, .indexed base idx .preDec => .movLoadLockedIdxPreDec m d base idx

/-- The store of an addressing form, store-conditional where `atomic` (R143, R146, R208). -/
def Instr.store (atomic : Bool) (m : MMode) (d : RegNum) (addr : Addr) : Instr :=
  match atomic, addr with
  | false, .disp base off => .movStoreDisp m d base off
  | false, .reg idx .keep => .movStoreReg m d idx
  | false, .reg idx .postInc => .movStoreRegPostInc m d idx
  | false, .reg idx .postDec => .movStoreRegPostDec m d idx
  | false, .reg idx .preInc => .movStoreRegPreInc m d idx
  | false, .reg idx .preDec => .movStoreRegPreDec m d idx
  | false, .indexed base idx .keep => .movStoreIdx m d base idx
  | false, .indexed base idx .postInc => .movStoreIdxPostInc m d base idx
  | false, .indexed base idx .postDec => .movStoreIdxPostDec m d base idx
  | false, .indexed base idx .preInc => .movStoreIdxPreInc m d base idx
  | false, .indexed base idx .preDec => .movStoreIdxPreDec m d base idx
  | true, .disp base off => .movStoreCondDisp m d base off
  | true, .reg idx .keep => .movStoreCondReg m d idx
  | true, .reg idx .postInc => .movStoreCondRegPostInc m d idx
  | true, .reg idx .postDec => .movStoreCondRegPostDec m d idx
  | true, .reg idx .preInc => .movStoreCondRegPreInc m d idx
  | true, .reg idx .preDec => .movStoreCondRegPreDec m d idx
  | true, .indexed base idx .keep => .movStoreCondIdx m d base idx
  | true, .indexed base idx .postInc => .movStoreCondIdxPostInc m d base idx
  | true, .indexed base idx .postDec => .movStoreCondIdxPostDec m d base idx
  | true, .indexed base idx .preInc => .movStoreCondIdxPreInc m d base idx
  | true, .indexed base idx .preDec => .movStoreCondIdxPreDec m d base idx

/-- The branch of a condition, register form (R372). -/
def Instr.branchR (c : Cond) (m : MMode) (a p : Bool) (arg loc : RegNum) : Instr :=
  match c with
  | .z => .bzR m a p arg loc
  | .nz => .bnzR m a p arg loc
  | .m => .bmR m a p arg loc
  | .mz => .bmzR m a p arg loc
  | .nm => .bnmR m a p arg loc
  | .nmo => .bnmoR m a p arg loc
  | .l => .blR m a p arg loc
  | .lz => .blzR m a p arg loc
  | .nl => .bnlR m a p arg loc
  | .nlo => .bnloR m a p arg loc
  | .o => .boR m a p arg loc
  | .no => .bnoR m a p arg loc

/-- The branch of a condition, offset form (R372). -/
def Instr.branchO (c : Cond) (m : MMode) (a p : Bool) (arg : RegNum) (off : BitVec 14) : Instr :=
  match c with
  | .z => .bzO m a p arg off
  | .nz => .bnzO m a p arg off
  | .m => .bmO m a p arg off
  | .mz => .bmzO m a p arg off
  | .nm => .bnmO m a p arg off
  | .nmo => .bnmoO m a p arg off
  | .l => .blO m a p arg off
  | .lz => .blzO m a p arg off
  | .nl => .bnlO m a p arg off
  | .nlo => .bnloO m a p arg off
  | .o => .boO m a p arg off
  | .no => .bnoO m a p arg off

/-- AUXCODE of a branch condition (R155). -/
def Cond.code (c : Cond) : BitVec 4 :=
  match c with
  | .z => 1 | .nz => 2 | .m => 3 | .mz => 4 | .nm => 5 | .nmo => 6
  | .l => 7 | .lz => 8 | .nl => 9 | .nlo => 10 | .o => 11 | .no => 12

/-- Memory transfers, T = 0 (R143, R144, R146). -/
def decodeMemory (f : Fields) : Except DecodeError Instr :=
  let m := MMode.ofCode f.mmode
  let make := if f.group.getLsbD 0 then Instr.load f.b25 m f.dest else Instr.store f.b25 m f.dest
  if f.b26 then .ok (make (.disp f.mid f.off12))
  else
    match Update.ofCode (f.aux.extractLsb' 0 3) with
    | some u => .ok (make (if f.aux.getLsbD 3 then .indexed f.mid f.lo u else .reg f.lo u))
    | none => .error .memoryAuxcode

/-- Inter-register transfers and the load immediate, T = 1 (R143, R145, R147). -/
def decodeInterRegister (f : Fields) : Except DecodeError Instr :=
  let m := MMode.ofCode f.mmode
  if !f.group.getLsbD 0 then .error .storeOfInterRegister
  else if f.b26 then .ok (.movImm m f.b25 f.dest f.imm18)
  else if f.b25 then .error .atomicInterRegister
  else
    match f.aux with
    | 0 => .ok (.movRegReg m f.dest f.lo)
    | 1 => .ok (.movRegSpc m f.dest f.lo)
    | 2 => .ok (.movSpcReg m f.dest f.lo)
    | 3 => .ok (.movRegDsp m f.dest f.lo)
    | 4 => .ok (.movDspReg m f.dest f.lo)
    | 14 => .ok (.movRegFpr m f.dest f.lo)
    | 15 => .ok (.movFprReg m f.dest f.lo)
    | _ => .error .interRegisterAuxcode

/-- Integer arithmetic/logic, F = 0, register operands (R151). -/
def decodeIntegerR (f : Fields) : Except DecodeError Instr :=
  let m := MMode.ofCode f.mmode
  match f.aux with
  | 0 => .ok (.addR m f.b25 f.dest f.mid)
  | 1 => .ok (.subR m f.b25 f.dest f.mid)
  | 2 => .ok (.mulR m f.b25 f.dest f.mid)
  | 3 => .ok (.divR m f.b25 f.dest f.mid)
  | 4 => .ok (.slR m f.b25 f.dest f.mid)
  | 5 => .ok (.srR m f.b25 f.dest f.mid)
  | 6 => .ok (if f.b25 then .rrR m f.dest f.mid else .rlR m f.dest f.mid)
  | 7 => .ok (.andR m f.dest f.mid)
  | 8 => .ok (.nandR m f.dest f.mid)
  | 9 => .ok (.orR m f.dest f.mid)
  | 10 => .ok (.xorR m f.dest f.mid)
  | 11 => .ok (if f.b25 then .rbR m f.dest f.mid else .sbR m f.dest f.mid)
  | 12 => .ok (if f.b25 then .rvbR m f.dest f.mid else .tbR m f.dest f.mid)
  | 14 => .ok (.madR m f.b25 f.dest f.mid f.lo)
  | 15 => .ok (.msuR m f.b25 f.dest f.mid f.lo)
  | _ => .error .integerAuxcode

/-- Integer arithmetic/logic, F = 0, with an immediate (R149, R150, R151). -/
def decodeIntegerI (f : Fields) : Except DecodeError Instr :=
  let m := MMode.ofCode f.mmode
  match f.aux with
  | 0 => .ok (.addI m f.b25 f.dest f.imm14)
  | 1 => .ok (.subI m f.b25 f.dest f.imm14)
  | 2 => .ok (.mulI m f.b25 f.dest f.imm14)
  | 3 => .ok (.divI m f.b25 f.dest f.imm14)
  | 4 => .ok (.slI m f.b25 f.dest f.imm14)
  | 5 => .ok (.srI m f.b25 f.dest f.imm14)
  | 6 => .ok (if f.b25 then .rrI m f.dest f.imm14 else .rlI m f.dest f.imm14)
  | 7 => .ok (.andI m f.b25 f.dest f.imm14)
  | 8 => .ok (.nandI m f.b25 f.dest f.imm14)
  | 9 => .ok (.orI m f.b25 f.dest f.imm14)
  | 10 => .ok (.xorI m f.b25 f.dest f.imm14)
  | 11 => .ok (if f.b25 then .rbI m f.dest f.imm14 else .sbI m f.dest f.imm14)
  | 12 => .ok (if f.b25 then .rvbI m f.dest f.imm14 else .tbI m f.dest f.imm14)
  | 14 => .ok (.madI m f.b25 f.dest f.mid f.imm8)
  | 15 => .ok (.msuI m f.b25 f.dest f.mid f.imm8)
  | _ => .error .integerAuxcode

/-- The instruction where the condition on the fixed bits holds (R152, R156 item 6). -/
def fpIf (fixed : Bool) (i : Instr) : Except DecodeError Instr :=
  if fixed then .ok i else .error .fpFixedBit

/-- Floating-point instructions, F = 1 (R151, R152). -/
def decodeFloat (f : Fields) : Except DecodeError Instr :=
  let m := MMode.ofCode f.mmode
  let plain := f.mmode == 0 && !f.b26 && !f.b25
  let convert := !f.b26
  let format := !f.b26 && !f.b25 && m.isFpWidth
  match f.aux with
  | 0 => fpIf plain (.fadd f.dest f.mid)
  | 1 => fpIf plain (.fsub f.dest f.mid)
  | 2 => fpIf plain (.fmul f.dest f.mid)
  | 3 => fpIf plain (.fdiv f.dest f.mid)
  | 4 => fpIf plain (.frem f.dest f.mid)
  | 5 => fpIf plain (.fcmp f.dest f.mid)
  | 6 => fpIf plain (.fsqr f.dest)
  | 7 => fpIf plain (.fabs f.dest)
  | 8 => fpIf plain (.fneg f.dest)
  | 9 => fpIf plain (.frnd f.dest)
  | 10 => fpIf convert (.ff2i m f.b25 f.dest)
  | 11 => fpIf convert (.fi2f m f.b25 f.dest)
  | 12 => fpIf format (.fext m f.dest)
  | 13 => fpIf format (.fsqz m f.dest)
  | 14 => fpIf plain (.fmad f.dest f.mid f.lo)
  | _ => fpIf plain (.fmsu f.dest f.mid f.lo)

/-- The four returns, AUXCODE 1101 (R155, R156 item 9, 48_return_wait.md R400). -/
def decodeReturn (f : Fields) : Except DecodeError Instr :=
  match f.mmode, f.b26, f.b25 with
  | 0, false, false => .ok (.ret f.b24)
  | 1, false, false => .ok (.reti f.b24)
  | 2, false, false => .ok (.rete f.b24)
  | 2, false, true => .ok (.reteR f.b24 f.mid)
  | 2, true, true => .ok (.reteO f.b24 f.off20)
  | 3, false, false => .ok (.retn f.b24)
  | 3, false, true => .ok (.retnR f.b24 f.mid)
  | 3, true, true => .ok (.retnO f.b24 f.off20)
  | _, _, _ => .error .returnForm

/-- Control instructions (R153, R155). -/
def decodeControl (f : Fields) : Except DecodeError Instr :=
  let m := MMode.ofCode f.mmode
  let branch (c : Cond) : Except DecodeError Instr :=
    .ok (if f.b26 then .branchO c m f.b25 f.b24 f.dest f.imm14 else .branchR c m f.b25 f.b24 f.dest f.mid)
  match f.aux with
  | 0 =>
    if f.mmode == 0 then .ok (if f.b26 then .jmpO f.b25 f.b24 f.off20 else .jmpR f.b25 f.b24 f.mid)
    else .error .jumpMode
  | 1 => branch .z
  | 2 => branch .nz
  | 3 => branch .m
  | 4 => branch .mz
  | 5 => branch .nm
  | 6 => branch .nmo
  | 7 => branch .l
  | 8 => branch .lz
  | 9 => branch .nl
  | 10 => branch .nlo
  | 11 => branch .o
  | 12 => branch .no
  | 13 => decodeReturn f
  | 14 =>
    if f.mmode == 0 && !f.b25 && !f.b24 then .ok (if f.b26 then .waitO f.off20 else .waitR f.mid)
    else .error .waitForm
  | _ => .error .controlAuxcode

/-- The instruction of the fields: the group decides the format (R140). -/
def decodeFields (f : Fields) : Except DecodeError Instr :=
  match f.group with
  | 0 => if f.b24 then decodeFloat f else if f.b26 then decodeIntegerI f else decodeIntegerR f
  | 1 => decodeControl f
  | _ => if f.b24 then decodeInterRegister f else decodeMemory f

/-- The instruction of a word, or the item of R156 that makes it an invalid instruction. -/
def decode (w : Word) : Except DecodeError Instr := decodeFields (Fields.ofWord w)

/-- A 32-bit value of four bytes in memory order (20_memory.md R106, R108). -/
def wordOfBytes (e : Endian) (b0 b1 b2 b3 : Byte) : Word :=
  match e with
  | .little => b3 ++ (b2 ++ (b1 ++ b0))
  | .big => b0 ++ (b1 ++ (b2 ++ b3))

/-- The four bytes of a word in memory order (R106). -/
def bytesOfWord (e : Endian) (w : Word) : List Byte :=
  let bs := [w.extractLsb' 0 8, w.extractLsb' 8 8, w.extractLsb' 16 8, w.extractLsb' 24 8]
  match e with
  | .little => bs
  | .big => bs.reverse

/-- Decoding of any bytes: the instruction of the first four, and the bytes that follow (R140, R161). -/
def decodeBytes (e : Endian) (bs : List Byte) : Except DecodeError (Instr × List Byte) :=
  match bs with
  | b0 :: b1 :: b2 :: b3 :: rest => (decode (wordOfBytes e b0 b1 b2 b3)).map fun i => (i, rest)
  | _ => .error .tooShort

/-! ## The encoder -/

/-- The fields of a data transfer word (R142). -/
def transferFields (l : Bool) (m : MMode) (o u t : Bool) (d : BitVec 6) (aux : BitVec 4) (hi2 : BitVec 2)
    (mid lo : BitVec 6) : Fields :=
  { group := BitVec.ofBool true ++ BitVec.ofBool l, mmode := m.code, b26 := o, b25 := u, b24 := t, dest := d,
    aux := aux, hi2 := hi2, mid := mid, lo := lo }

/-- The fields of a memory transfer with displacement addressing (R142, R144). -/
def dispFields (l u : Bool) (m : MMode) (d base : RegNum) (off : BitVec 12) : Fields :=
  transferFields l m true u false d (off.extractLsb' 8 4) (off.extractLsb' 6 2) base (off.extractLsb' 0 6)

/-- The fields of a memory transfer with register addressing (R142, R146). -/
def regFields (l u : Bool) (m : MMode) (d idx : RegNum) (upd : Update) : Fields :=
  transferFields l m false u false d (BitVec.ofBool false ++ upd.code) 0 0 idx

/-- The fields of a memory transfer with indexed addressing (R142, R146). -/
def idxFields (l u : Bool) (m : MMode) (d base idx : RegNum) (upd : Update) : Fields :=
  transferFields l m false u false d (BitVec.ofBool true ++ upd.code) 0 base idx

/-- The fields of an arithmetic/logic word (R148). -/
def aluFields (m : BitVec 3) (i u f : Bool) (d : BitVec 6) (aux : BitVec 4) (hi2 : BitVec 2) (mid lo : BitVec 6) :
    Fields :=
  { group := 0, mmode := m, b26 := i, b25 := u, b24 := f, dest := d, aux := aux, hi2 := hi2, mid := mid, lo := lo }

/-- The fields of an arithmetic/logic word with IMMEDIATE14 (R148, R149). -/
def imm14Fields (m : MMode) (u : Bool) (d : RegNum) (aux : BitVec 4) (imm : BitVec 14) : Fields :=
  aluFields m.code true u false d aux (imm.extractLsb' 12 2) (imm.extractLsb' 6 6) (imm.extractLsb' 0 6)

/-- The fields of a control word (R153). -/
def controlFields (m : BitVec 3) (o a p : Bool) (arg : BitVec 6) (aux : BitVec 4) (hi2 : BitVec 2) (mid lo : BitVec 6) :
    Fields :=
  { group := 1, mmode := m, b26 := o, b25 := a, b24 := p, dest := arg, aux := aux, hi2 := hi2, mid := mid, lo := lo }

/-- The fields of a control word with OFFSET20 (R153, R154). -/
def off20Fields (m : BitVec 3) (a p : Bool) (aux : BitVec 4) (off : BitVec 20) : Fields :=
  controlFields m true a p (off.extractLsb' 14 6) aux (off.extractLsb' 12 2) (off.extractLsb' 6 6)
    (off.extractLsb' 0 6)

/-- The fields of a control word with OFFSET14 (R153, R154). -/
def off14Fields (m : MMode) (a p : Bool) (arg : RegNum) (aux : BitVec 4) (off : BitVec 14) : Fields :=
  controlFields m.code true a p arg aux (off.extractLsb' 12 2) (off.extractLsb' 6 6) (off.extractLsb' 0 6)

/-- The fields of an instruction: the encoding tables R143, R146, R147, R151, R152, R155. -/
def encodeFields (i : Instr) : Fields :=
  match i with
  | .addR m u d r => aluFields m.code false u false d 0 0 r 0
  | .addI m u d imm => imm14Fields m u d 0 imm
  | .subR m u d r => aluFields m.code false u false d 1 0 r 0
  | .subI m u d imm => imm14Fields m u d 1 imm
  | .mulR m u d r => aluFields m.code false u false d 2 0 r 0
  | .mulI m u d imm => imm14Fields m u d 2 imm
  | .divR m u d r => aluFields m.code false u false d 3 0 r 0
  | .divI m u d imm => imm14Fields m u d 3 imm
  | .slR m u d r => aluFields m.code false u false d 4 0 r 0
  | .slI m u d imm => imm14Fields m u d 4 imm
  | .srR m u d r => aluFields m.code false u false d 5 0 r 0
  | .srI m u d imm => imm14Fields m u d 5 imm
  | .rlR m d r => aluFields m.code false false false d 6 0 r 0
  | .rlI m d imm => imm14Fields m false d 6 imm
  | .rrR m d r => aluFields m.code false true false d 6 0 r 0
  | .rrI m d imm => imm14Fields m true d 6 imm
  | .andR m d r => aluFields m.code false false false d 7 0 r 0
  | .andI m u d imm => imm14Fields m u d 7 imm
  | .nandR m d r => aluFields m.code false false false d 8 0 r 0
  | .nandI m u d imm => imm14Fields m u d 8 imm
  | .orR m d r => aluFields m.code false false false d 9 0 r 0
  | .orI m u d imm => imm14Fields m u d 9 imm
  | .xorR m d r => aluFields m.code false false false d 10 0 r 0
  | .xorI m u d imm => imm14Fields m u d 10 imm
  | .sbR m d r => aluFields m.code false false false d 11 0 r 0
  | .sbI m d imm => imm14Fields m false d 11 imm
  | .rbR m d r => aluFields m.code false true false d 11 0 r 0
  | .rbI m d imm => imm14Fields m true d 11 imm
  | .tbR m d r => aluFields m.code false false false d 12 0 r 0
  | .tbI m d imm => imm14Fields m false d 12 imm
  | .rvbR m d r => aluFields m.code false true false d 12 0 r 0
  | .rvbI m d imm => imm14Fields m true d 12 imm
  | .madR m u d r r2 => aluFields m.code false u false d 14 0 r r2
  | .madI m u d r imm => aluFields m.code true u false d 14 (imm.extractLsb' 6 2) r (imm.extractLsb' 0 6)
  | .msuR m u d r r2 => aluFields m.code false u false d 15 0 r r2
  | .msuI m u d r imm => aluFields m.code true u false d 15 (imm.extractLsb' 6 2) r (imm.extractLsb' 0 6)
  | .fadd d r => aluFields 0 false false true d 0 0 r 0
  | .fsub d r => aluFields 0 false false true d 1 0 r 0
  | .fmul d r => aluFields 0 false false true d 2 0 r 0
  | .fdiv d r => aluFields 0 false false true d 3 0 r 0
  | .frem d r => aluFields 0 false false true d 4 0 r 0
  | .fcmp d r => aluFields 0 false false true d 5 0 r 0
  | .fsqr d => aluFields 0 false false true d 6 0 0 0
  | .fabs d => aluFields 0 false false true d 7 0 0 0
  | .fneg d => aluFields 0 false false true d 8 0 0 0
  | .frnd d => aluFields 0 false false true d 9 0 0 0
  | .fmad d r r2 => aluFields 0 false false true d 14 0 r r2
  | .fmsu d r r2 => aluFields 0 false false true d 15 0 r r2
  | .ff2i m u d => aluFields m.code false u true d 10 0 0 0
  | .fi2f m u d => aluFields m.code false u true d 11 0 0 0
  | .fext m d => aluFields m.code false false true d 12 0 0 0
  | .fsqz m d => aluFields m.code false false true d 13 0 0 0
  | .jmpR a p loc => controlFields 0 false a p 0 0 0 loc 0
  | .jmpO a p off => off20Fields 0 a p 0 off
  | .bzR m a p arg loc => controlFields m.code false a p arg 1 0 loc 0
  | .bzO m a p arg off => off14Fields m a p arg 1 off
  | .bnzR m a p arg loc => controlFields m.code false a p arg 2 0 loc 0
  | .bnzO m a p arg off => off14Fields m a p arg 2 off
  | .bmR m a p arg loc => controlFields m.code false a p arg 3 0 loc 0
  | .bmO m a p arg off => off14Fields m a p arg 3 off
  | .bmzR m a p arg loc => controlFields m.code false a p arg 4 0 loc 0
  | .bmzO m a p arg off => off14Fields m a p arg 4 off
  | .bnmR m a p arg loc => controlFields m.code false a p arg 5 0 loc 0
  | .bnmO m a p arg off => off14Fields m a p arg 5 off
  | .bnmoR m a p arg loc => controlFields m.code false a p arg 6 0 loc 0
  | .bnmoO m a p arg off => off14Fields m a p arg 6 off
  | .blR m a p arg loc => controlFields m.code false a p arg 7 0 loc 0
  | .blO m a p arg off => off14Fields m a p arg 7 off
  | .blzR m a p arg loc => controlFields m.code false a p arg 8 0 loc 0
  | .blzO m a p arg off => off14Fields m a p arg 8 off
  | .bnlR m a p arg loc => controlFields m.code false a p arg 9 0 loc 0
  | .bnlO m a p arg off => off14Fields m a p arg 9 off
  | .bnloR m a p arg loc => controlFields m.code false a p arg 10 0 loc 0
  | .bnloO m a p arg off => off14Fields m a p arg 10 off
  | .boR m a p arg loc => controlFields m.code false a p arg 11 0 loc 0
  | .boO m a p arg off => off14Fields m a p arg 11 off
  | .bnoR m a p arg loc => controlFields m.code false a p arg 12 0 loc 0
  | .bnoO m a p arg off => off14Fields m a p arg 12 off
  | .ret p => controlFields 0 false false p 0 13 0 0 0
  | .reti p => controlFields 1 false false p 0 13 0 0 0
  | .rete p => controlFields 2 false false p 0 13 0 0 0
  | .reteR p loc => controlFields 2 false true p 0 13 0 loc 0
  | .reteO p off => off20Fields 2 true p 13 off
  | .retn p => controlFields 3 false false p 0 13 0 0 0
  | .retnR p loc => controlFields 3 false true p 0 13 0 loc 0
  | .retnO p off => off20Fields 3 true p 13 off
  | .waitR loc => controlFields 0 false false false 0 14 0 loc 0
  | .waitO off => off20Fields 0 false false 14 off
  | .movLoadDisp m d base off => dispFields true false m d base off
  | .movLoadLockedDisp m d base off => dispFields true true m d base off
  | .movStoreDisp m d base off => dispFields false false m d base off
  | .movStoreCondDisp m d base off => dispFields false true m d base off
  | .movLoadReg m d idx => regFields true false m d idx .keep
  | .movLoadRegPostInc m d idx => regFields true false m d idx .postInc
  | .movLoadRegPostDec m d idx => regFields true false m d idx .postDec
  | .movLoadRegPreInc m d idx => regFields true false m d idx .preInc
  | .movLoadRegPreDec m d idx => regFields true false m d idx .preDec
  | .movLoadIdx m d base idx => idxFields true false m d base idx .keep
  | .movLoadIdxPostInc m d base idx => idxFields true false m d base idx .postInc
  | .movLoadIdxPostDec m d base idx => idxFields true false m d base idx .postDec
  | .movLoadIdxPreInc m d base idx => idxFields true false m d base idx .preInc
  | .movLoadIdxPreDec m d base idx => idxFields true false m d base idx .preDec
  | .movLoadLockedReg m d idx => regFields true true m d idx .keep
  | .movLoadLockedRegPostInc m d idx => regFields true true m d idx .postInc
  | .movLoadLockedRegPostDec m d idx => regFields true true m d idx .postDec
  | .movLoadLockedRegPreInc m d idx => regFields true true m d idx .preInc
  | .movLoadLockedRegPreDec m d idx => regFields true true m d idx .preDec
  | .movLoadLockedIdx m d base idx => idxFields true true m d base idx .keep
  | .movLoadLockedIdxPostInc m d base idx => idxFields true true m d base idx .postInc
  | .movLoadLockedIdxPostDec m d base idx => idxFields true true m d base idx .postDec
  | .movLoadLockedIdxPreInc m d base idx => idxFields true true m d base idx .preInc
  | .movLoadLockedIdxPreDec m d base idx => idxFields true true m d base idx .preDec
  | .movStoreReg m d idx => regFields false false m d idx .keep
  | .movStoreRegPostInc m d idx => regFields false false m d idx .postInc
  | .movStoreRegPostDec m d idx => regFields false false m d idx .postDec
  | .movStoreRegPreInc m d idx => regFields false false m d idx .preInc
  | .movStoreRegPreDec m d idx => regFields false false m d idx .preDec
  | .movStoreIdx m d base idx => idxFields false false m d base idx .keep
  | .movStoreIdxPostInc m d base idx => idxFields false false m d base idx .postInc
  | .movStoreIdxPostDec m d base idx => idxFields false false m d base idx .postDec
  | .movStoreIdxPreInc m d base idx => idxFields false false m d base idx .preInc
  | .movStoreIdxPreDec m d base idx => idxFields false false m d base idx .preDec
  | .movStoreCondReg m d idx => regFields false true m d idx .keep
  | .movStoreCondRegPostInc m d idx => regFields false true m d idx .postInc
  | .movStoreCondRegPostDec m d idx => regFields false true m d idx .postDec
  | .movStoreCondRegPreInc m d idx => regFields false true m d idx .preInc
  | .movStoreCondRegPreDec m d idx => regFields false true m d idx .preDec
  | .movStoreCondIdx m d base idx => idxFields false true m d base idx .keep
  | .movStoreCondIdxPostInc m d base idx => idxFields false true m d base idx .postInc
  | .movStoreCondIdxPostDec m d base idx => idxFields false true m d base idx .postDec
  | .movStoreCondIdxPreInc m d base idx => idxFields false true m d base idx .preInc
  | .movStoreCondIdxPreDec m d base idx => idxFields false true m d base idx .preDec
  | .movRegReg m d s => transferFields true m false false true d 0 0 0 s
  | .movRegSpc m d s => transferFields true m false false true d 1 0 0 s
  | .movSpcReg m d s => transferFields true m false false true d 2 0 0 s
  | .movRegDsp m d s => transferFields true m false false true d 3 0 0 s
  | .movDspReg m d s => transferFields true m false false true d 4 0 0 s
  | .movRegFpr m d s => transferFields true m false false true d 14 0 0 s
  | .movFprReg m d s => transferFields true m false false true d 15 0 0 s
  | .movImm m u d imm => transferFields true m true u true d (imm.extractLsb' 14 4) (imm.extractLsb' 12 2) (imm.extractLsb' 6 6)
      (imm.extractLsb' 0 6)

/-- The word of an instruction. -/
def encode (i : Instr) : Word := (encodeFields i).toWord

/-- The words of an instruction: always one (R140). -/
def encodeWords (i : Instr) : List Word := [encode i]

/-- The instruction the decoder reads from the bits `w` of an opcode-table row, laid out little-endian as REF32 stores
them; every bit above `nbits` is zero. -/
def decodeTableWord (nbits w : Nat) : Option Instr :=
  match decodeBytes .little (bytesOfWord .little (BitVec.ofNat 32 (w % 2 ^ nbits))) with
  | .ok (i, _) => some i
  | .error _ => none

end Sys2Proof
end

