-- ==== Sys2Proof/Machine/State.lean ====
section
/-! DEFINITION. The state of one PEAKTOP core with its memory and environment, as plain data, and the state right after
reset.  INVENTORY.md lists every field with the rule that names it and its reset value. -/
namespace Sys2Proof.Machine

/-- The core status (10_state.md R32). -/
inductive Run where
  | running | waitingTimed | waitingForever | stuck
deriving DecidableEq, Repr

/-- A load-locked reservation (10_state.md R33): the effective address, the bytes, and the physical addresses of those
bytes, which a write of another agent is compared with (20_memory.md R116, log 22). -/
structure Reservation where
  addr : Nat
  bytes : Nat
  phys : List Nat
deriving DecidableEq, Repr

/-- SCR bits 0, 2 and 3 as they were before an NMI or exception entry (10_state.md R35). -/
structure SavedBits where
  b0 : Bool
  b2 : Bool
  b3 : Bool
deriving DecidableEq, Repr

/-- What the environment does at the start of one step (00_scope.md R8, 60_exceptions.md R490; log 7). -/
structure Input where
  /-- The reset line is asserted (R530). -/
  reset : Bool := false
  /-- A request on the NMI line (R457). -/
  nmi : Bool := false
  /-- A request on the interrupt line (R480). -/
  irq : Bool := false
  /-- Hardware-raised exceptions: DSP EXCEPTION 0 to 3 and implementation-specific ones (R454, R473, R476). -/
  raise : List Nat := []
  /-- Bytes another agent writes to memory, by physical address (20_memory.md R116). -/
  writes : List Host.Cell := []
  /-- `may_succeed` of a store-conditional in this step (R116). -/
  maySucceed : Bool := true
  /-- The bus fails the instruction fetches of this step (R113). -/
  fetchFault : Bool := false
  /-- The bus fails the data accesses of this step (R113). -/
  dataFault : Bool := false
deriving DecidableEq, Repr

/-- Why the machine stops for good. -/
inductive Fault where
  /-- Raised by the step of a stuck core (after an impotent I SYSTEM BUS ERROR, 60_exceptions.md R474) when the
  environment has nothing more to do: only a reset leaves this state.  Safe: the spec gives such a core no further
  behaviour. -/
  | stuck
deriving DecidableEq, Repr

/-- What the model does not answer. -/
inductive Refusal where
  /-- Raised by an arm of `exec` for an instruction without a meaning; safe.  No arm raises it. -/
  | notModelled (mnemonic : String)
  /-- Raised by the step of a state whose configuration record the spec does not allow
  (93_implementation_defined.md, treatment "refuse"; log 32).  Safe. -/
  | configurationOutsideSpec
deriving DecidableEq, Repr

/-- The whole machine: configuration, register files, special registers, memory, the hidden state the spec names, and
the model's own fields (log 5 to 10). -/
structure State where
  /-- The implementation parameters (R9); no step changes them. -/
  cfg : Config
  /-- The GPR file, bank after bank (R24, R29). -/
  gpr : List Reg
  /-- The DSP file, empty when absent (R63). -/
  dsp : List Reg
  /-- The FP file, empty when absent (R64). -/
  fpr : List Reg
  /-- The implementation-specific files, in the order of the configuration (R65). -/
  extra : List (List Reg)
  /-- Memory: listed bytes by rising physical address, none of them zero; an unlisted byte is zero (R100, log 4). -/
  mem : List Host.Cell
  /-- INSTRUCTION COUNTER, its low ICW bits (R30). -/
  ic : BitVec 64
  /-- EXECUTION STATUS (R41). -/
  est : BitVec 32
  /-- EXCEPTION INSTRUCTION (R45). -/
  exi : BitVec 32
  /-- EXCEPTION REGISTER (R46). -/
  exc : BitVec 64
  /-- EXCEPTION MASKS (R47). -/
  exm : BitVec 64
  /-- EXCEPTION TABLE BASE ADDRESS (R48). -/
  etb : BitVec 64
  /-- INTERRUPT TABLE BASE ADDRESS (R49). -/
  itb : BitVec 64
  /-- CORE ID (R50). -/
  cid : BitVec 32
  /-- PROCESS ID (R51). -/
  pid : BitVec 64
  /-- SYSTEM CONTROL REGISTER (R52). -/
  scr : BitVec 32
  /-- NMI RETURN POINTER (R54). -/
  nrp : BitVec 64
  /-- EXCEPTION RETURN POINTER (R55). -/
  erp : BitVec 64
  /-- USER CONTROL REGISTER (R56). -/
  ucr : BitVec 32
  /-- CALL RETURN POINTER (R59). -/
  crp : BitVec 64
  /-- INTERRUPT RETURN POINTER (R60). -/
  irp : BitVec 64
  /-- DSP CONFIGURATION REGISTER (R61). -/
  dcr : BitVec 64
  /-- The core status (R32). -/
  run : Run
  /-- The wait timer (R32). -/
  waitTimer : Nat
  /-- The LL/SC reservation (R33). -/
  resv : Option Reservation
  /-- A request on the NMI line not yet taken (R34). -/
  nmiPending : Bool
  /-- A request on the interrupt line not yet taken (R34). -/
  irqPending : Bool
  /-- `sav_exc` (R35). -/
  savExc : Option SavedBits
  /-- `sav_nmi` (R35). -/
  savNmi : Option SavedBits
  /-- `sav_irq` (R35). -/
  savIrq : Option Bool
  /-- The error output line (R478). -/
  error : Bool
  /-- MODEL: the word in execution, the `W` of the raise protocol (R452; log 5). -/
  ir : Word
  /-- MODEL: the last executed instruction raised a potent exception, so it did not complete (R458; log 6). -/
  abandoned : Bool
  /-- MODEL: `may_succeed` of the current step (R116; log 8). -/
  maySucceed : Bool
  /-- MODEL: the bus fails the fetches of the current step (R113; log 9). -/
  fetchFault : Bool
  /-- MODEL: the bus fails the data accesses of the current step (R113; log 9). -/
  dataFault : Bool
  /-- MODEL: the counter the free values are applied to (log 10). -/
  freeCount : Nat
  /-- MODEL: what the environment does in the steps to come (log 7). -/
  inputs : List Input
deriving DecidableEq, Repr

/-- The machine right after the reset of an implementation at power-up (70_reset_and_hazards.md R530, R531): what the
spec gives no value for is zero (log 2, 3, 4, 38). -/
def State.resetWith (c : Config) : State where
  cfg := c
  gpr := List.replicate (c.nbanks * c.ngpr) 0
  dsp := match c.dsp with
    | some f => List.replicate f.count 0
    | none => []
  fpr := match c.fpr with
    | some f => List.replicate f.count 0
    | none => []
  extra := c.extraFiles.map fun f => List.replicate f.count 0
  mem := []
  ic := 0
  est := 0
  exi := 0
  exc := 0
  exm := 0
  etb := 0
  itb := 0
  cid := c.cidReset
  pid := 0
  scr := 1
  nrp := 0
  erp := 0
  ucr := 0
  crp := 0
  irp := 0
  dcr := 0
  run := .running
  waitTimer := 0
  resv := none
  nmiPending := false
  irqPending := false
  savExc := none
  savNmi := none
  savIrq := none
  error := false
  ir := 0
  abandoned := false
  maySucceed := true
  fetchFault := false
  dataFault := false
  freeCount := 0
  inputs := []

/-- The machine right after reset: REF32 (00_scope.md R9; log 1). -/
def State.reset : State := State.resetWith Config.ref32

end Sys2Proof.Machine
end

