-- ==== Sys2Proof/Machine/Implementation.lean ====
section
/-! DEFINITION. What the configuration record says: the widths of the machine modes, the derived parameters, the
IMPLEMENTATION REGISTER (10_state.md R40), what is implemented (30_encoding.md R159), and which records the spec allows
(00_scope.md R9, R10). -/
namespace Sys2Proof

/-- `w(MMODE) = 2^(MMODE+3)`, the width of a machine mode in bits (10_state.md R20). -/
def MMode.width (m : MMode) : Nat :=
  match m with
  | .b => 8 | .h => 16 | .w => 32 | .d => 64 | .q => 128 | .s1 => 256 | .s2 => 512 | .s4 => 1024

/-- `n(MMODE) = w/8`, the bytes of a machine mode (R12, R20). -/
def MMode.bytes (m : MMode) : Nat := m.width / 8

/-- The order of the machine modes by width (R20). -/
def MMode.le (m k : MMode) : Bool := decide (m.width ≤ k.width)

/-- The smallest machine mode of at least `n` bits, `n` at most 64 (20_memory.md R101). -/
def MMode.holding (n : Nat) : MMode :=
  if n ≤ 8 then .b else if n ≤ 16 then .h else if n ≤ 32 then .w else .d

/-- The width of a floating-point format (45_floating_point.md R312). -/
def FpFmt.width (f : FpFmt) : Nat := 1 + f.expBits + f.fracBits

/-- The IEEE 754-2008 interchange format of a machine mode (R312, R328; 92_eei_decisions.md D18); the modes FEXT and
FSQZ do not take have none. -/
def MMode.fpFmt (m : MMode) : FpFmt :=
  match m with
  | .h => { expBits := 5, fracBits := 10 }
  | .w => { expBits := 8, fracBits := 23 }
  | .d => { expBits := 11, fracBits := 52 }
  | .q => { expBits := 15, fracBits := 112 }
  | .s1 => { expBits := 19, fracBits := 236 }
  | .b | .s2 | .s4 => { expBits := 0, fracBits := 0 }

/-- Every value of the format `f` is a value of the format `g` (R328). -/
def FpFmt.fits (f g : FpFmt) : Bool := decide (f.expBits ≤ g.expBits ∧ f.fracBits ≤ g.fracBits)

/-- The FPU type code of IMP[19:16] (R40). -/
def FpuType.code (t : FpuType) : BitVec 4 :=
  match t with
  | .none => 0 | .half => 1 | .single => 2 | .double => 3 | .quadruple => 4 | .octuple => 5
  | .extHalf => 9 | .extSingle => 10 | .extDouble => 11 | .extQuadruple => 12 | .extOctuple => 13

/-- The interchange format an FPU type has or extends (R40, R312). -/
def FpuType.baseFmt (t : FpuType) : FpFmt :=
  match t with
  | .none | .half | .extHalf => MMode.h.fpFmt
  | .single | .extSingle => MMode.w.fpFmt
  | .double | .extDouble => MMode.d.fpFmt
  | .quadruple | .extQuadruple => MMode.q.fpFmt
  | .octuple | .extOctuple => MMode.s1.fpFmt

/-- The FPU type is one of the extended ones (R40). -/
def FpuType.extended (t : FpuType) : Bool :=
  match t with
  | .extHalf | .extSingle | .extDouble | .extQuadruple | .extOctuple => true
  | _ => false

/-- ICW = PAW - 2 (10_state.md R30).  DESIGN CHOICE (log 34): PAW = 1, for which the spec gives no width, has ICW = 0, as
PAW = 2 has. -/
def Config.icw (c : Config) : Nat := c.paw - 2

/-- PAWM, the machine mode of address arithmetic (20_memory.md R101). -/
def Config.pawm (c : Config) : MMode := MMode.holding c.paw

/-- FPW, the width of the widest supported floating-point format (R310). -/
def Config.fpw (c : Config) : Nat := c.fpFmt.width

/-- The largest Table 1 width not above `n` bits, `n` at least 8 (40_data_transfer.md R214). -/
def tablePart (n : Nat) : Nat :=
  if 1024 ≤ n then 1024 else if 512 ≤ n then 512 else if 256 ≤ n then 256 else if 128 ≤ n then 128
  else if 64 ≤ n then 64 else if 32 ≤ n then 32 else if 16 ≤ n then 16 else 8

/-- The IMPLEMENTATION REGISTER (R40): the fields from bit 63 down to bit 0. -/
def Config.imp (c : Config) : BitVec 64 :=
  let dspCount := match c.dsp with
    | some f => BitVec.ofNat 6 (f.count - 1)
    | none => 0
  let dspWidth := match c.dsp with
    | some f => f.width.code
    | none => 0
  c.archNum.extractLsb' 12 8 ++ (dspCount ++ (dspWidth ++ (BitVec.ofBool c.hasDiv ++ (BitVec.ofBool c.hasMul ++
    ((0 : BitVec 1) ++ (BitVec.ofNat 6 (c.pidw - 1) ++ (BitVec.ofNat 6 (c.ngpr - 1) ++ (c.archNum.extractLsb' 0 12 ++
    (c.fpu.code ++ (BitVec.ofBool c.sepId ++ (BitVec.ofNat 6 (c.paw - 1) ++ (c.aluw.code ++ (c.gprw.code ++
    c.maxXfer.code)))))))))))))

/-- The implementation provides the instruction at all (R4, R159). -/
def Config.has (c : Config) (mn : Mnemonic) : Bool :=
  !c.absent.contains mn &&
    match mn with
    | .mul => c.hasMul
    | .div => c.hasDiv
    | _ => true

/-- `Implemented(m, mode)` for the integer arithmetic/logic and branch instructions: every mode up to the natural one,
and the wider ones the implementation lists (R22, R159). -/
def Config.implements (c : Config) (mn : Mnemonic) (m : MMode) : Bool :=
  c.has mn && (m.le c.natMode || c.wider.contains (mn, m))

/-- A floating-point instruction is implemented: there is an FPU and it has the instruction (R159, R310). -/
def Config.implementsFp (c : Config) (mn : Mnemonic) : Bool := c.fpu != .none && c.has mn

/-- FF2I and FI2F: an FPU, and the integer width of the mode (R159, R326, R327). -/
def Config.implementsConvert (c : Config) (mn : Mnemonic) (m : MMode) : Bool :=
  c.implementsFp mn && c.implements mn m

/-- FEXT and FSQZ: an FPU, the mode, which is optional beyond NATMODE (R9, R22), and a widest format that holds the
mode's format (R159, R328).  DESIGN CHOICE (log 40): a format that is
not wider in bits than an extended FPU's but has more exponent or more fraction bits is not supported; R328 speaks of wider
formats alone. -/
def Config.implementsFormat (c : Config) (mn : Mnemonic) (m : MMode) : Bool :=
  c.implementsConvert mn m && (m.isFpWidth && m.fpFmt.fits c.fpFmt)

/-- The FP format is one the FPU type allows (R40, R312; log 27). -/
def Config.fpFmtValid (c : Config) : Bool :=
  let base := c.fpu.baseFmt
  if c.fpu.extended then base.fits c.fpFmt && decide (base.width < c.fpFmt.width ∧ c.fpFmt.width ≤ 1024)
  else c.fpu == .none || c.fpFmt == base

/-- The implementation-specific files: at most four, with AUXCODEs 0101 to 1101, each used once (R65; log 38). -/
def Config.extraValid (c : Config) : Bool :=
  let codes := c.extraFiles.flatMap fun f => f.toGpr.toList ++ f.fromGpr.toList
  decide (c.extraFiles.length ≤ 4) && c.extraFiles.all (fun f => decide (1 ≤ f.count ∧ f.count ≤ 64)) &&
    codes.all (fun a => decide (5 ≤ a.toNat ∧ a.toNat ≤ 13)) && decide codes.Nodup

/-- The register files have sizes the spec allows (R9, R24, R29, R63, R64).  DESIGN CHOICE (log 35): FPRW, for which the
spec gives no bounds, is 8 to 1024. -/
def Config.filesValid (c : Config) : Bool :=
  decide (c.gprw.width ≤ c.gprwPhys ∧ c.gprwPhys ≤ 1024 ∧ 3 ≤ c.ngpr ∧ c.ngpr ≤ 64 ∧ 1 ≤ c.nbanks ∧ c.nbanks ≤ 16) &&
  (match c.fpr with
    | some f => decide (1 ≤ f.count ∧ f.count ≤ 64 ∧ 8 ≤ f.width ∧ f.width ≤ 1024)
    | none => true) &&
  (match c.dsp with
    | some f => decide (1 ≤ f.count ∧ f.count ≤ 64)
    | none => true)

/-- The record is an implementation the spec allows (R9, R10; log 32); IMP says that MUL and DIV are executed exactly where
they are (R40). -/
def Config.valid (c : Config) : Bool :=
  c.filesValid && c.extraValid && c.fpFmtValid &&
  (c.gprw != c.aluw || c.natMode == c.gprw) &&
  decide (1 ≤ c.paw ∧ c.paw ≤ 64 ∧ 1 ≤ c.pidw ∧ c.pidw ≤ 64 ∧ 20 ≤ c.waitw) &&
  !c.absent.contains .mov && !(c.hasMul && c.absent.contains .mul) && !(c.hasDiv && c.absent.contains .div) &&
  c.hwExceptions.all fun n => decide (22 ≤ n ∧ n ≤ 63)

end Sys2Proof
end

