-- ==== Sys2Proof/Machine/Ops.lean ====
section
/-! DEFINITION. The named operations over registers, memory and the exception machinery.  Every instruction's meaning is
written over these; taking an exception and returning from one stand here too. -/
namespace Sys2Proof.Machine

/-! ## Bits and register cells -/

/-- `x` with bit `i` set to `b`. -/
def setBit {w : Nat} (x : BitVec w) (i : Nat) (b : Bool) : BitVec w :=
  if b then x ||| (1#w <<< i) else x &&& ~~~(1#w <<< i)

/-- The cell with its low `p` bits replaced by those of `v`; the others keep their value (10_state.md R26). -/
def setLow (p : Nat) (old : Reg) (v : Nat) : Reg :=
  BitVec.ofNat 1024 (old.toNat / 2 ^ p * 2 ^ p + v % 2 ^ p)

/-- The registers a `w`-bit datum occupies in a file whose registers hold `c` bits of it (R25).  DESIGN CHOICE (log 41): an
FP datum that is no whole number of registers, for which R25 and R26 give none, occupies the next greater number, its rest
in the low bits of the last one, whose other bits keep their value. -/
def pieces (w c : Nat) : Nat := (w + c - 1) / c

/-- The datum read from `k` registers from `i` on, `c` bits of each, the lowest register least significant, wrapping
after register `n - 1` (R25). -/
def gather (file : List Reg) (base n c : Nat) : Nat → Nat → Nat
  | 0, _ => 0
  | k + 1, i => (file.getD (base + i % n) 0).toNat % 2 ^ c + 2 ^ c * gather file base n c k (i + 1)

/-- The file after a `w`-bit datum `v` is written to `k` registers from `i` on (R26). -/
def scatter (file : List Reg) (base n c : Nat) : Nat → Nat → Nat → Nat → List Reg
  | 0, _, _, _ => file
  | k + 1, i, w, v =>
    scatter (file.set (base + i % n) (setLow (min c w) (file.getD (base + i % n) 0) v)) base n c k (i + 1) (w - c)
      (v / 2 ^ c)

/-- The `w`-bit read of register `i` of a file of `n` registers that start at `base` and hold `c` bits (R25). -/
def readFile (file : List Reg) (base n c w i : Nat) : BitVec w :=
  BitVec.ofNat w (gather file base n c (pieces w c) i)

/-- The `w`-bit write of register `i` of such a file (R26). -/
def writeFile {w : Nat} (file : List Reg) (base n c i : Nat) (v : BitVec w) : List Reg :=
  scatter file base n c (pieces w c) i w v.toNat

/-! ## General-purpose registers -/

/-- The index of register 0 of the GPR bank in use, SCR[7:4] (R29). -/
def State.bankBase (s : State) : Nat := (s.scr.extractLsb' 4 4).toNat * s.cfg.ngpr

/-- `R(i, w)` (R25). -/
def State.readGpr (s : State) (i : RegNum) (w : Nat) : BitVec w :=
  readFile s.gpr s.bankBase s.cfg.ngpr s.cfg.gprw.width w i.toNat

/-- `R(i, w) <- v`, the register number given as a number (R26). -/
def State.writeGprAt {w : Nat} (s : State) (i : Nat) (v : BitVec w) : State :=
  { s with gpr := writeFile s.gpr s.bankBase s.cfg.ngpr s.cfg.gprw.width i v }

/-- `R(i, w) <- v` (R26). -/
def State.writeGpr {w : Nat} (s : State) (i : RegNum) (v : BitVec w) : State := s.writeGprAt i.toNat v

/-! ## DSP and FP registers -/

/-- The DSP read `D(i, w)` (40_data_transfer.md R212). -/
def State.readDsp (s : State) (f : DspFile) (i : RegNum) (w : Nat) : BitVec w :=
  readFile s.dsp 0 f.count f.width.width w i.toNat

/-- The DSP write (R213). -/
def State.writeDsp {w : Nat} (s : State) (f : DspFile) (i : RegNum) (v : BitVec w) : State :=
  { s with dsp := writeFile s.dsp 0 f.count f.width.width i.toNat v }

/-- The raw read of an FP register: `min(w, FPRW)` bits of it (R214, 93_implementation_defined.md); the bits of a mode
wider than the register are a FREE VALUE (log 17). -/
def State.readFpr (s : State) (f : FprFile) (i : RegNum) (w : Nat) : BitVec w :=
  let x := (s.fpr.getD i.toNat 0).toNat
  if w ≤ f.width then BitVec.ofNat w x
  else BitVec.ofNat w (x % 2 ^ f.width + 2 ^ f.width * (Config.freeTransfer s.freeCount).toNat)

/-- The raw write of an FP register: `min(w, FPRW)` bits of it, the others keep their value (R215,
93_implementation_defined.md; log 17). -/
def State.writeFpr {w : Nat} (s : State) (f : FprFile) (i : RegNum) (v : BitVec w) : State :=
  { s with fpr := s.fpr.set i.toNat (setLow (min w f.width) (s.fpr.getD i.toNat 0) v.toNat) }

/-- The read of register `i` of the `k`-th implementation-specific file (R65; log 38). -/
def State.readExtra (s : State) (k : Nat) (f : ExtraFile) (i : RegNum) (w : Nat) : BitVec w :=
  readFile (s.extra.getD k []) 0 f.count f.width.width w i.toNat

/-- The write of register `i` of the `k`-th implementation-specific file (R65; log 38). -/
def State.writeExtra {w : Nat} (s : State) (k : Nat) (f : ExtraFile) (i : RegNum) (v : BitVec w) : State :=
  { s with extra := s.extra.set k (writeFile (s.extra.getD k []) 0 f.count f.width.width i.toNat v) }

/-- `F(i)`: the operand of an FP instruction, from the FP file where there is one, else from the GPR file with all its
physical bits (45_floating_point.md R311, 10_state.md R27, R64). -/
def State.readFp (s : State) (i : RegNum) : BitVec s.cfg.fpw :=
  match s.cfg.fpr with
  | some f => readFile s.fpr 0 f.count f.width s.cfg.fpw i.toNat
  | none => readFile s.gpr s.bankBase s.cfg.ngpr s.cfg.gprwPhys s.cfg.fpw i.toNat

/-- `F(i) <- v` (R311). -/
def State.writeFp {w : Nat} (s : State) (i : RegNum) (v : BitVec w) : State :=
  match s.cfg.fpr with
  | some f => { s with fpr := writeFile s.fpr 0 f.count f.width i.toNat v }
  | none => { s with gpr := writeFile s.gpr s.bankBase s.cfg.ngpr s.cfg.gprwPhys i.toNat v }

/-- The `w`-bit integer or narrow FP operand of an FP conversion: the same file as `F(i)`, R25 on the low Table 1 sized
part of its registers (R64; log 18). -/
def State.readFpPart (s : State) (i : RegNum) (w : Nat) : BitVec w :=
  match s.cfg.fpr with
  | some f => readFile s.fpr 0 f.count (tablePart f.width) w i.toNat
  | none => s.readGpr i w

/-- The `w`-bit integer, flag or narrow FP result of an FP instruction (R321, R326, R329; log 18). -/
def State.writeFpPart {w : Nat} (s : State) (i : RegNum) (v : BitVec w) : State :=
  match s.cfg.fpr with
  | some f => { s with fpr := writeFile s.fpr 0 f.count (tablePart f.width) i.toNat v }
  | none => s.writeGpr i v

/-- How many registers an FP instruction can name (R158, R310). -/
def Config.fpCount (c : Config) : Nat :=
  match c.fpr with
  | some f => f.count
  | none => c.ngpr

/-! ## Special registers -/

/-- NSPC (10_state.md R36). -/
def numSpc : Nat := 27

/-- The 27 slots of the special register file, 32 bits each (R36, R37). -/
def State.spcSlots (s : State) : List Word :=
  let lo (x : BitVec 64) : Word := x.extractLsb' 0 32
  let hi (x : BitVec 64) : Word := x.extractLsb' 32 32
  [lo s.cfg.imp, hi s.cfg.imp, s.est, s.exi, lo s.exc, hi s.exc, lo s.exm, hi s.exm, lo s.etb, hi s.etb,
   lo s.itb, hi s.itb, s.cid, lo s.pid, hi s.pid, s.scr, lo s.nrp, hi s.nrp, lo s.erp, hi s.erp, s.ucr,
   lo s.crp, hi s.crp, lo s.irp, hi s.irp, lo s.dcr, hi s.dcr]

/-- The slots as a register file (R36). -/
def State.spcFile (s : State) : List Reg := s.spcSlots.map (BitVec.setWidth 1024)

/-- The state whose special registers are those of the file; IMP is read-only and EXM[0] is always 0 (R37, R40, R47). -/
def State.withSpcFile (s : State) (file : List Reg) : State :=
  let slot (i : Nat) : Word := (file.getD i 0).setWidth 32
  let pair (i : Nat) : BitVec 64 := slot (i + 1) ++ slot i
  { s with
    est := slot 2
    exi := slot 3
    exc := pair 4
    exm := setBit (pair 6) 0 false
    etb := pair 8
    itb := pair 10
    cid := slot 12
    pid := pair 13
    scr := slot 15
    nrp := pair 16
    erp := pair 18
    ucr := slot 20
    crp := pair 21
    irp := pair 23
    dcr := pair 25 }

/-- `S(i, w)` (R36). -/
def State.readSpc (s : State) (i : RegNum) (w : Nat) : BitVec w := readFile s.spcFile 0 numSpc 32 w i.toNat

/-- `S(i, w) <- v` (R36). -/
def State.writeSpc {w : Nat} (s : State) (i : RegNum) (v : BitVec w) : State :=
  s.withSpcFile (writeFile s.spcFile 0 numSpc 32 i.toNat v)

/-- The slots a `w`-bit access to slot `i` touches (40_data_transfer.md R211). -/
def spcTouched (i : RegNum) (w : Nat) : List Nat :=
  (List.range (max 1 (w / 32))).map fun j => (i.toNat + j) % numSpc

/-- The slots writable in user mode: UCR, CRP, IRP, DCR (R37). -/
def userWritable (slot : Nat) : Bool := decide (20 ≤ slot ∧ slot ≤ 26)

/-- SYSTEM MODE, SCR[0] (R52). -/
def State.systemMode (s : State) : Bool := s.scr.getLsbD 0

/-- DEBUG MODE, SCR[1] (R52). -/
def State.debugMode (s : State) : Bool := s.scr.getLsbD 1

/-- ENABLE EXCEPTIONS, SCR[2] (R52). -/
def State.excEnabled (s : State) : Bool := s.scr.getLsbD 2

/-- ENABLE INTERRUPTS, SCR[3] (R52). -/
def State.irqEnabled (s : State) : Bool := s.scr.getLsbD 3

/-- The sync output line, always equal to UCR[4] (R62). -/
def State.syncLine (s : State) : Bool := s.ucr.getLsbD 4

/-- A new SCR value names a GPR bank that does not exist, other than the one in use (60_exceptions.md R461). -/
def State.badBank (s : State) (scr : Word) : Bool :=
  scr.extractLsb' 4 4 != s.scr.extractLsb' 4 4 && decide (s.cfg.nbanks ≤ (scr.extractLsb' 4 4).toNat)

/-! ## The instruction counter -/

/-- A value as the INSTRUCTION COUNTER holds it: its low ICW bits (10_state.md R31). -/
def State.icWrap (s : State) (x : BitVec 64) : BitVec 64 := (x.setWidth s.cfg.icw).setWidth 64

/-- `IC <- IC + 1` (R31). -/
def State.advance (s : State) : State := { s with ic := s.icWrap (s.ic + 1) }

/-! ## Memory -/

/-- Memory: bytes by physical address. -/
abbrev Memory := List Host.Cell

/-- The listed addresses rise strictly from `lo` on and no listed byte is zero. -/
def Memory.wfFrom (lo : Nat) : Memory → Bool
  | [] => true
  | (k, v) :: t => decide (lo ≤ k) && v != 0 && Memory.wfFrom (k + 1) t

/-- The canonical form of memory: equal memories are equal lists. -/
def Memory.wf (m : Memory) : Bool := Memory.wfFrom 0 m

/-- Every listed address lies below `top`. -/
def Memory.below (top : Nat) (m : Memory) : Bool := m.all fun c => decide (c.1 < top)

/-- The byte at a physical address; an unlisted byte is zero (20_memory.md R100, log 4). -/
def memByte : Memory → Nat → Byte
  | [], _ => 0
  | (k, v) :: t, a => if k = a then v else memByte t a

/-- Memory after one byte is written, in canonical form. -/
def memSet : Memory → Nat → Byte → Memory
  | [], a, b => if b = 0 then [] else [(a, b)]
  | (k, v) :: t, a, b =>
    if a < k then (if b = 0 then (k, v) :: t else (a, b) :: (k, v) :: t)
    else if a = k then (if b = 0 then t else (a, b) :: t)
    else (k, v) :: memSet t a b

/-- Memory after the bytes are written at the addresses, in order.  DESIGN CHOICE (log 37): where two addresses of one
access are one physical byte, which the spec gives no order for, the later one wins. -/
def memSetAll : Memory → List Nat → List Byte → Memory
  | m, a :: as, b :: bs => memSetAll (memSet m a b) as bs
  | m, _, _ => m

/-- The value of bytes, the first least significant (R106). -/
def leValue : List Byte → Nat
  | [] => 0
  | b :: t => b.toNat + 256 * leValue t

/-- The `n` low bytes of a value, the least significant first (R106). -/
def leBytes : Nat → Nat → List Byte
  | 0, _ => []
  | n + 1, v => BitVec.ofNat 8 v :: leBytes n (v / 256)

/-- The value of the bytes at rising addresses under a byte order (R106). -/
def valueOfBytes (e : Endian) (bs : List Byte) : Nat :=
  match e with
  | .little => leValue bs
  | .big => leValue bs.reverse

/-- The bytes a value puts at rising addresses under a byte order (R106). -/
def bytesOfValue (e : Endian) (n v : Nat) : List Byte :=
  match e with
  | .little => leBytes n v
  | .big => (leBytes n v).reverse

/-- The entry of the address map covers an access (R112). -/
def MapEntry.covers (e : MapEntry) (system : Bool) (pid : BitVec 64) (a : Nat) (k : AccessKind) : Bool :=
  decide (e.lo ≤ a ∧ a ≤ e.hi) &&
  (match e.pid with
    | some p => p == pid
    | none => true) &&
  (match e.system with
    | some b => b == system
    | none => true) &&
  (match k with
    | .fetch => e.fetch
    | .read => e.read
    | .write => e.write)

/-- `Translate(mode, PID, A, kind)`: the physical address, or `none` for an error (R112; log 21). -/
def Config.translate (c : Config) (system : Bool) (pid : BitVec 64) (a : Nat) (k : AccessKind) : Option Nat :=
  match c.translation.find? (fun e => MapEntry.covers e system pid a k) with
  | none => some a
  | some e => e.target.map fun base => (base + (a - e.lo)) % 2 ^ c.paw

/-- The part of PROCESS ID that is used: its low PIDW bits (10_state.md R51). -/
def State.process (s : State) : BitVec 64 := (s.pid.setWidth s.cfg.pidw).setWidth 64

/-- The physical address of one byte of an access, or `none` where the access fails (R102, R112, R113). -/
def State.phys (s : State) (k : AccessKind) (a : Nat) : Option Nat :=
  let failing := match k with
    | .fetch => s.fetchFault
    | .read | .write => s.dataFault
  if failing then none else Config.translate s.cfg s.systemMode s.process (a % 2 ^ s.cfg.paw) k

/-- The physical addresses of the `n` bytes from `a` on, modulo `2^PAW`; `none` where any of them fails: an access
fails as a whole (R101, R106, 60_exceptions.md R475). -/
def State.physRange (s : State) (k : AccessKind) : Nat → Nat → Option (List Nat)
  | _, 0 => some []
  | a, n + 1 =>
    match s.phys k a, s.physRange k (a + 1) n with
    | some p, some ps => some (p :: ps)
    | _, _ => none

/-- `MemRead`: the `w`-bit value at `a`, or `none` where the access fails (R106). -/
def State.memRead (s : State) (k : AccessKind) (a w : Nat) : Option (BitVec w) :=
  (s.physRange k a (w / 8)).map fun ps => BitVec.ofNat w (valueOfBytes s.cfg.endian (ps.map (memByte s.mem)))

/-- `MemWrite`: the state with the `w`-bit value stored at `a`, or `none` where the access fails (R106). -/
def State.memWrite {w : Nat} (s : State) (a : Nat) (v : BitVec w) : Option State :=
  (s.physRange .write a (w / 8)).map fun ps =>
    { s with mem := memSetAll s.mem ps (bytesOfValue s.cfg.endian (w / 8) v.toNat) }

/-- `Fetch(IC)`: the word at byte address `4 * IC`, or `none` where the fetch fails (R108). -/
def State.fetch (s : State) : Option Word := s.memRead .fetch (4 * s.ic.toNat) 32

/-! ## Raising an exception -/

/-- The exceptions an instruction or a bus access raises (60_exceptions.md R453). -/
inductive Exc where
  | nmi | debugMode | invalidInstruction | systemInstruction | unimplementedGprBank | unimplementedInstruction
  | unimplementedRegister | invalidOperation | divisionByZero | overflow
  | fpInvalidOperation | fpDenormalizedOperand | fpDivisionByZero | fpOverflow | fpUnderflow | fpInexactResult
  | dsp0 | dsp1 | dsp2 | dsp3 | iBusError | dBusError
deriving DecidableEq, Repr

/-- The number of an exception: its bit in EXC and EXM (R453). -/
def Exc.num (e : Exc) : Nat :=
  match e with
  | .nmi => 0 | .debugMode => 1 | .invalidInstruction => 2 | .systemInstruction => 3 | .unimplementedGprBank => 4
  | .unimplementedInstruction => 5 | .unimplementedRegister => 6 | .invalidOperation => 7 | .divisionByZero => 8
  | .overflow => 9 | .fpInvalidOperation => 10 | .fpDenormalizedOperand => 11 | .fpDivisionByZero => 12
  | .fpOverflow => 13 | .fpUnderflow => 14 | .fpInexactResult => 15 | .dsp0 => 16 | .dsp1 => 17 | .dsp2 => 18
  | .dsp3 => 19 | .iBusError => 20 | .dBusError => 21

/-- The EXC bit of exception number `n`. -/
def excBit (n : Nat) : BitVec 64 := 1#64 <<< n

/-- The EXC bits of a list of exceptions. -/
def excMask (es : List Exc) : BitVec 64 := es.foldr (fun e m => excBit e.num ||| m) 0

/-- Some exception of the mask is potent: exceptions are enabled and it is not masked (R451). -/
def State.potent (s : State) (mask : BitVec 64) : Bool := s.excEnabled && (mask &&& ~~~s.exm) != 0

/-- The exceptions are noted: their EXC bits are set and EXI holds the word of the raising instruction (R452). -/
def State.note (s : State) (mask : BitVec 64) : State := { s with exc := s.exc ||| mask, exi := s.ir }

/-- THE RAISE PROTOCOL for an instruction-raised exception (R452): EXC and EXI are written; where one is potent nothing
else is and the instruction is abandoned, else the write-back happens; IC advances in every case. -/
def State.raise (s : State) (mask : BitVec 64) (writeBack : State → State) : State :=
  if s.potent mask then { (s.note mask).advance with abandoned := true }
  else (writeBack (s.note mask)).advance

/-- The raise protocol for an exception whose instruction is skipped when it is impotent (R452, R453). -/
def State.raiseSkip (s : State) (e : Exc) : State := s.raise (excBit e.num) id

/-- The end of an instruction that raised the exceptions of the mask, none where the mask is zero (R452, R314). -/
def State.complete (s : State) (mask : BitVec 64) (writeBack : State → State) : State :=
  if mask = 0 then (writeBack s).advance else s.raise mask writeBack

/-- The raise protocol for a hardware-raised exception between two instructions (R454): EXI receives the next word,
and is left unchanged if that fetch fails. -/
def State.raiseHw (s : State) (n : Nat) : State :=
  { s with exc := s.exc ||| excBit n, exi := s.fetch.getD s.exi }

/-- D SYSTEM BUS ERROR (R475): the access has no effect, EXC and EXI are written, IC advances; the error line is set
where the exception is impotent. -/
def State.dBusError (s : State) : State :=
  let mask := excBit Exc.dBusError.num
  if s.potent mask then { (s.note mask).advance with abandoned := true }
  else { (s.note mask).advance with error := true }

/-- A register file of which nothing is determined: FREE VALUES of the file's width (R474; log 39). -/
def freeFile (step file count width : Nat) : List Reg :=
  (List.range count).map fun k => BitVec.ofNat 1024 ((Config.freeRegister step file k).toNat % 2 ^ width)

/-- Memory of which nothing is determined, in canonical form inside the address space (R474; log 39). -/
def freeMem (step paw : Nat) : Memory :=
  (Config.freeMemory step).foldl (fun m c => memSet m (c.1 % 2 ^ paw) c.2) []

/-- The registers and memory of a stuck core: FREE VALUES, of which only EXC[20] is determined (R474; log 39).  EXM[0] is
hard-wired (10_state.md R47). -/
def State.undetermined (s : State) : State :=
  let n := s.freeCount
  let x := Config.freeSpecial n
  let low (k : Nat) : Word := (x k).setWidth 32
  { s with
    gpr := freeFile n 0 (s.cfg.nbanks * s.cfg.ngpr) s.cfg.gprwPhys
    dsp := match s.cfg.dsp with
      | some f => freeFile n 1 f.count f.width.width
      | none => []
    fpr := match s.cfg.fpr with
      | some f => freeFile n 2 f.count f.width
      | none => []
    extra := s.cfg.extraFiles.zipIdx.map fun e => freeFile n (3 + e.2) e.1.count e.1.width.width
    mem := freeMem n s.cfg.paw
    ic := s.icWrap (x 0)
    est := low 1
    exi := low 2
    exc := x 3 ||| excBit Exc.iBusError.num
    exm := setBit (x 4) 0 false
    etb := x 5
    itb := x 6
    cid := low 7
    pid := x 8
    scr := low 9
    nrp := x 10
    erp := x 11
    ucr := low 12
    crp := x 13
    irp := x 14
    dcr := x 15 }

/-- I SYSTEM BUS ERROR (R474): potent, EXC alone is written and IC stays; impotent, the core is stuck with nothing of its
registers and memory determined, and the error line is set. -/
def State.iBusError (s : State) : State :=
  let mask := excBit Exc.iBusError.num
  if s.potent mask then { s with exc := s.exc ||| mask }
  else { s.undetermined with run := .stuck, error := true }

/-! ## Entering and leaving a handler -/

/-- The three kinds of handler (R450). -/
inductive Handler where
  | nmi | exception | interrupt
deriving DecidableEq, Repr

/-- SCR bits 0, 2 and 3, as an entry saves them (R35, R486). -/
def State.scrBits (s : State) : SavedBits :=
  { b0 := s.systemMode, b2 := s.excEnabled, b3 := s.irqEnabled }

/-- SCR in an NMI or exception handler: system mode, exceptions and interrupts disabled (R485). -/
def handlerScr (scr : Word) : Word := setBit (setBit (setBit scr 0 true) 2 false) 3 false

/-- SCR in an interrupt handler: system mode, interrupts disabled (R485). -/
def interruptScr (scr : Word) : Word := setBit (setBit scr 0 true) 3 false

/-- TAKING AN EXCEPTION: the entry to a handler (R456 exception, R457 NMI, R481 interrupt).  The return pointer of the
kind receives IC, the saved record the SCR bits; SCR becomes that of the handler, IC the table base. -/
def State.enter (s : State) (h : Handler) : State :=
  match h with
  | .nmi =>
    { s with nmiPending := false, savNmi := some s.scrBits, nrp := s.ic, exc := s.exc ||| excBit Exc.nmi.num,
             exi := s.fetch.getD s.exi, scr := handlerScr s.scr, ic := s.icWrap s.etb, resv := none }
  | .exception =>
    { s with savExc := some s.scrBits, erp := s.ic, scr := handlerScr s.scr, ic := s.icWrap s.etb, resv := none }
  | .interrupt =>
    { s with irqPending := false, savIrq := some s.irqEnabled, irp := s.ic, scr := interruptScr s.scr,
             ic := s.icWrap s.itb, resv := none }

/-- SCR with bits 0, 2 and 3 restored (R486). -/
def restoreScr (scr : Word) (b : SavedBits) : Word := setBit (setBit (setBit scr 0 b.b0) 2 b.b2) 3 b.b3

/-- SCR with bit 3 restored (R402). -/
def restoreIrq (scr : Word) (b : Bool) : Word := setBit scr 3 b

/-- IC as a return sets it: the pointer, or the pointer minus one where P = 1 (48_return_wait.md R400). -/
def State.returnIc (s : State) (ptr : BitVec 64) (p : Bool) : BitVec 64 := s.icWrap (if p then ptr - 1 else ptr)

/-- LEAVING A HANDLER without argument (R402, R403, R404 form (a)): IC from the kind's return pointer, SCR bits from the
kind's saved record where there is one. -/
def State.leave (s : State) (h : Handler) (p : Bool) : State :=
  match h with
  | .nmi =>
    { s with ic := s.returnIc s.nrp p, scr := (s.savNmi.map (restoreScr s.scr)).getD s.scr, savNmi := none, resv := none }
  | .exception =>
    { s with ic := s.returnIc s.erp p, scr := (s.savExc.map (restoreScr s.scr)).getD s.scr, savExc := none, resv := none }
  | .interrupt =>
    { s with ic := s.returnIc s.irp p, scr := (s.savIrq.map (restoreIrq s.scr)).getD s.scr, savIrq := none, resv := none }

/-- Leaving an exception handler with an argument that replaces SCR (R403 forms (b) and (c)). -/
def State.leaveExceptionWith (s : State) (p : Bool) (scr : Word) : State :=
  { s with ic := s.returnIc s.erp p, scr := scr, savExc := none, resv := none }

/-- Leaving an NMI handler with an argument that replaces SCR (R404 forms (b) and (c)). -/
def State.leaveNmiWith (s : State) (p : Bool) (scr : Word) : State :=
  { s with ic := s.returnIc s.nrp p, scr := scr, savNmi := none, resv := none }

/-! ## Waiting and reset -/

/-- The end of a pause (48_return_wait.md R406). -/
def State.wake (s : State) : State := { s with run := .running, waitTimer := 0, ic := s.icWrap (s.ic + 1) }

/-- SYSTEM RESET of a machine in any state: the registers the spec resets, while the other register files and memory
keep their contents (70_reset_and_hazards.md R530, R532). -/
def State.systemReset (s : State) : State :=
  { State.resetWith s.cfg with
    gpr := s.gpr, dsp := s.dsp, fpr := s.fpr, extra := s.extra, mem := s.mem, inputs := s.inputs, freeCount := s.freeCount }

end Sys2Proof.Machine
end

