-- ==== Sys2Proof/Machine/Operands.lean ====
section
/-! DEFINITION. The operand forms: the extension of immediates (30_encoding.md R145, R149, R150), the second operand of
an arithmetic/logic instruction, the effective address and the index update of a memory transfer (40_data_transfer.md
R205), the value of a program transfer (47_program_transfer.md R370). -/
namespace Sys2Proof.Machine

/-- `e()`, the extension of an immediate to `w` bits: zero extension for U = 1, sign extension for U = 0, truncation
where `w` is narrower (R145, R149, R150). -/
def extend {k : Nat} (u : Bool) (w : Nat) (x : BitVec k) : BitVec w :=
  if u then x.setWidth w else x.signExtend w

/-- The number a bit vector denotes: unsigned for U = 1, two's complement for U = 0 (R12). -/
def num {w : Nat} (u : Bool) (x : BitVec w) : Int := if u then (x.toNat : Int) else x.toInt

/-- The second operand of a two-operand arithmetic/logic instruction (R148). -/
inductive Src where
  /-- The register SOURCE. -/
  | reg (r : RegNum)
  /-- IMMEDIATE14, extended by the U bit given. -/
  | imm (u : Bool) (x : BitVec 14)
deriving DecidableEq, Repr

/-- The register fields a second operand uses (R158). -/
def Src.regs (src : Src) : List RegNum :=
  match src with
  | .reg r => [r]
  | .imm _ _ => []

/-- The value of a second operand in `w` bits (41_integer_arith.md R230). -/
def State.operand (s : State) (w : Nat) (src : Src) : BitVec w :=
  match src with
  | .reg r => s.readGpr r w
  | .imm u x => extend u w x

/-- The third operand of MAD and MSU (46_fused_multiply.md R350). -/
inductive Third where
  /-- The register SOURCE2. -/
  | reg (r : RegNum)
  /-- IMMEDIATE8. -/
  | imm (x : BitVec 8)
deriving DecidableEq, Repr

/-- The register fields a third operand uses. -/
def Third.regs (t : Third) : List RegNum :=
  match t with
  | .reg r => [r]
  | .imm _ => []

/-- The value of a third operand in `w` bits (R350). -/
def State.third (s : State) (u : Bool) (w : Nat) (t : Third) : BitVec w :=
  match t with
  | .reg r => s.readGpr r w
  | .imm x => extend u w x

/-! ## Memory addresses -/

/-- The register fields an addressing form uses (R158, R217). -/
def Addr.regs (a : Addr) : List RegNum :=
  match a with
  | .disp base _ => [base]
  | .reg idx _ => [idx]
  | .indexed base idx _ => [base, idx]

/-- A register read at the address width PAWM (20_memory.md R101). -/
def State.readAddr (s : State) (r : RegNum) : BitVec s.cfg.pawm.width := s.readGpr r s.cfg.pawm.width

/-- The index value the address is formed with: updated before for the pre-updates (R205). -/
def Update.used {k : Nat} (u : Update) (i0 step : BitVec k) : BitVec k :=
  match u with
  | .keep | .postInc | .postDec => i0
  | .preInc => i0 + step
  | .preDec => i0 - step

/-- The index value written back, if any (R205). -/
def Update.written {k : Nat} (u : Update) (i0 step : BitVec k) : Option (BitVec k) :=
  match u with
  | .keep => none
  | .postInc | .preInc => some (i0 + step)
  | .postDec | .preDec => some (i0 - step)

/-- The index step: the number of bytes transferred (R205). -/
def State.indexStep (s : State) (m : MMode) : BitVec s.cfg.pawm.width := BitVec.ofNat s.cfg.pawm.width m.bytes

/-- The effective address of a memory transfer (R205). -/
def State.effective (s : State) (m : MMode) (a : Addr) : Nat :=
  match a with
  | .disp base off => (s.readAddr base + off.signExtend s.cfg.pawm.width).toNat % 2 ^ s.cfg.paw
  | .reg idx upd => (Update.used upd (s.readAddr idx) (s.indexStep m)).toNat % 2 ^ s.cfg.paw
  | .indexed base idx upd =>
    (s.readAddr base + Update.used upd (s.readAddr idx) (s.indexStep m)).toNat % 2 ^ s.cfg.paw

/-- The index register and the value it receives, if the form updates one (R205). -/
def State.indexWrite (s : State) (m : MMode) (a : Addr) : Option (RegNum × BitVec s.cfg.pawm.width) :=
  match a with
  | .disp _ _ => none
  | .reg idx upd | .indexed _ idx upd => (Update.written upd (s.readAddr idx) (s.indexStep m)).map fun v => (idx, v)

/-- The state after an index write, if there is one (R203, R204). -/
def State.applyIndex {w : Nat} (s : State) (x : Option (RegNum × BitVec w)) : State :=
  match x with
  | some (r, v) => s.writeGpr r v
  | none => s

/-! ## Control operands -/

/-- A register read in the natural mode, as a signed number of 64 bits (47_program_transfer.md R370). -/
def State.locationValue (s : State) (loc : RegNum) : BitVec 64 :=
  (s.readGpr loc s.cfg.natMode.width).signExtend 64

/-- A register read in the natural mode, as an unsigned number (48_return_wait.md R403, R405). -/
def State.locationUnsigned (s : State) (loc : RegNum) : Nat := (s.readGpr loc s.cfg.natMode.width).toNat

end Sys2Proof.Machine
end

