-- ==== Sys2Proof/Machine/Flags.lean ====
section
/-! DEFINITION. EXECUTION STATUS: the sixteen flags as a record, their places (10_state.md R41), the update of EST (R42,
R43), and the flags of the integer arithmetic/logic instructions (R44).  The floating-point flags are in Float.lean. -/
namespace Sys2Proof.Machine

/-- The flags of EST (R41). -/
structure EstFlags where
  invalidOperation : Bool := false
  unimplementedOperation : Bool := false
  divisionByZero : Bool := false
  overflow : Bool := false
  underflow : Bool := false
  equal : Bool := false
  greaterThan : Bool := false
  lessThan : Bool := false
  inexact : Bool := false
  unordered : Bool := false
  sign : Bool := false
  zero : Bool := false
  denormalized : Bool := false
  infinity : Bool := false
  signalingNan : Bool := false
  nan : Bool := false
deriving DecidableEq, Repr

/-- EST[15:0] of the flags, bit 15 first (R41). -/
def EstFlags.bits (f : EstFlags) : BitVec 16 :=
  BitVec.ofBool f.nan ++ (BitVec.ofBool f.signalingNan ++ (BitVec.ofBool f.infinity ++
  (BitVec.ofBool f.denormalized ++ (BitVec.ofBool f.zero ++ (BitVec.ofBool f.sign ++ (BitVec.ofBool f.unordered ++
  (BitVec.ofBool f.inexact ++ (BitVec.ofBool f.lessThan ++ (BitVec.ofBool f.greaterThan ++ (BitVec.ofBool f.equal ++
  (BitVec.ofBool f.underflow ++ (BitVec.ofBool f.overflow ++ (BitVec.ofBool f.divisionByZero ++
  (BitVec.ofBool f.unimplementedOperation ++ BitVec.ofBool f.invalidOperation))))))))))))))

/-- An update of EST rewrites all sixteen flags and keeps EST[31:16] (R43). -/
def State.setFlags (s : State) (f : EstFlags) : State := { s with est := s.est.extractLsb' 16 16 ++ f.bits }

/-- EST of an instruction skipped by an impotent UNIMPLEMENTED INSTRUCTION: 0x0002 (R44). -/
def unimplementedFlags : EstFlags := { unimplementedOperation := true }

/-- The flags that compare two operands, signed or unsigned (R44). -/
def compareFlags {w : Nat} (signed : Bool) (a b : BitVec w) : EstFlags :=
  { equal := a == b
    greaterThan := if signed then b.slt a else b.ult a
    lessThan := if signed then a.slt b else a.ult b }

/-- `Flags` of an integer arithmetic/logic instruction: the comparison of the operands, the sign and zero of the result
at its own width (R44). -/
def intFlags {w k : Nat} (signed : Bool) (a b : BitVec w) (res : BitVec k) : EstFlags :=
  { compareFlags signed a b with sign := res.msb, zero := res == 0 }

end Sys2Proof.Machine
end

