-- ==== Sys2Proof/Machine/Checks.lean ====
section
/-! DEFINITION. The decode-time checks in the order of 30_encoding.md R160: UNIMPLEMENTED INSTRUCTION (R159), UNIMPLEMENTED
REGISTER (R158), SYSTEM INSTRUCTION, UNIMPLEMENTED GPR BANK. -/
namespace Sys2Proof.Machine

/-- The GPR fields name registers that exist (R158). -/
def State.gprsExist (s : State) (rs : List RegNum) : Bool := rs.all fun r => decide (r.toNat < s.cfg.ngpr)

/-- The register fields of an FP instruction name registers that exist: FP registers where there is an FP file
(10_state.md R64), GPRs where there is none (R158). -/
def State.fpsExist (s : State) (rs : List RegNum) : Bool := rs.all fun r => decide (r.toNat < Config.fpCount s.cfg)

/-- UNIMPLEMENTED INSTRUCTION of an arithmetic/logic word: skipped with EST[15:0] = 0x0002 where it is impotent
(60_exceptions.md R462, 10_state.md R44). -/
def State.unimplementedAlu (s : State) : State :=
  s.raise (excBit Exc.unimplementedInstruction.num) fun t => t.setFlags unimplementedFlags

/-- The checks of an arithmetic/logic instruction (R160).  DESIGN CHOICE (log 36): an impotent UNIMPLEMENTED REGISTER leaves
EST as it is, as 60_exceptions.md R463 has it; 10_state.md R42 lets a skipped instruction update EST and no rule gives a
value. -/
def State.checkAlu (s : State) (implemented registers : Bool) (body : State) : State :=
  if implemented then
    if registers then body else s.raiseSkip .unimplementedRegister
  else s.unimplementedAlu

/-- The checks of a data transfer or control instruction (R160). -/
def State.checkOther (s : State) (implemented registers : Bool) (body : State) : State :=
  if implemented then
    if registers then body else s.raiseSkip .unimplementedRegister
  else s.raiseSkip .unimplementedInstruction

/-- The check of a system instruction: user mode raises SYSTEM INSTRUCTION (60_exceptions.md R460). -/
def State.checkSystem (s : State) (body : State) : State :=
  if s.systemMode then body else s.raiseSkip .systemInstruction

/-- The check of a new SCR value: UNIMPLEMENTED GPR BANK (R461, 92_eei_decisions.md D30). -/
def State.checkBank (s : State) (scr : Word) (body : State) : State :=
  if s.badBank scr then s.raiseSkip .unimplementedGprBank else body

end Sys2Proof.Machine
end

