-- ==== Sys2Proof/Machine/IntegerArith.lean ====
section
/-! DEFINITION. Integer arithmetic: ADD, SUB, MUL, DIV (41_integer_arith.md), and the frame every two-operand integer
instruction shares (R230). -/
namespace Sys2Proof.Machine

/-- The frame of a two-operand integer arithmetic/logic instruction: the decode-time checks, then the body on the two
operands as they were before the instruction (R230). -/
def State.integerOp (s : State) (mn : Mnemonic) (m : MMode) (d : RegNum) (src : Src)
    (body : BitVec m.width → BitVec m.width → State) : State :=
  s.checkAlu (s.cfg.implements mn m) (s.gprsExist (d :: Src.regs src))
    (body (s.readGpr d m.width) (s.operand m.width src))

/-- An operation without exceptions of its own, whose operands count as unsigned: result and flags are written, IC
advances (R230, R250, R270). -/
def State.logicOp (s : State) (mn : Mnemonic) (m : MMode) (d : RegNum) (src : Src)
    (f : BitVec m.width → BitVec m.width → BitVec m.width) : State :=
  s.integerOp mn m d src fun a b => ((s.writeGpr d (f a b)).setFlags (intFlags false a b (f a b))).advance

/-- The exact result is representable in `w` bits, unsigned for U = 1 (R232, R233). -/
def inRange (u : Bool) (w : Nat) (x : Int) : Bool :=
  if u then decide (0 ≤ x ∧ x < 2 ^ w) else decide (-2 ^ (w - 1) ≤ x ∧ x < 2 ^ (w - 1))

/-- The maximal representable number of a mode (60_exceptions.md R465, R466). -/
def maxValue (u : Bool) (w : Nat) : BitVec w := if u then BitVec.allOnes w else BitVec.intMax w

/-- What ADD and SUB write on an impotent OVERFLOW: the parameter OVF_WRITEBACK (R236). -/
def overflowValue {w : Nat} (c : Config) (u : Bool) (res : BitVec w) : BitVec w :=
  match c.ovfWriteback with
  | .max => maxValue u w
  | .wrap => res

/-- The end of ADD and SUB: the exact result wrapped to the mode, OVERFLOW where it does not fit (R232, R233, R236). -/
def State.addSub {w : Nat} (s : State) (u : Bool) (d : RegNum) (a b : BitVec w) (exact : Int) : State :=
  let res := BitVec.ofInt w exact
  let ovf := !inRange u w exact
  s.complete (if ovf then excBit Exc.overflow.num else 0) fun t =>
    (t.writeGpr d (if ovf then overflowValue s.cfg u res else res)).setFlags
      { intFlags (!u) a b res with overflow := ovf }

/-- ADD (R232). -/
def State.add (s : State) (m : MMode) (u : Bool) (d : RegNum) (src : Src) : State :=
  s.integerOp .add m d src fun a b => s.addSub u d a b (num u a + num u b)

/-- SUB (R233). -/
def State.sub (s : State) (m : MMode) (u : Bool) (d : RegNum) (src : Src) : State :=
  s.integerOp .sub m d src fun a b => s.addSub u d a b (num u a - num u b)

/-- The end of an instruction with a double-width result that always fits: MUL, MAD, MSU (R234, R350). -/
def State.wideResult {w : Nat} (s : State) (u : Bool) (d : RegNum) (a b : BitVec w) (exact : Int) : State :=
  let res := BitVec.ofInt (2 * w) exact
  ((s.writeGpr d res).setFlags (intFlags (!u) a b res)).advance

/-- MUL (R234). -/
def State.mul (s : State) (m : MMode) (u : Bool) (d : RegNum) (src : Src) : State :=
  s.integerOp .mul m d src fun a b => s.wideResult u d a b (num u a * num u b)

/-- DIV overflows: signed, the minimum divided by -1 (R235). -/
def divOverflows {w : Nat} (u : Bool) (a b : BitVec w) : Bool := !u && a == BitVec.intMin w && b == BitVec.allOnes w

/-- The quotient of DIV: truncated toward zero, or the maximal number where the division raises (R235). -/
def quotient {w : Nat} (u : Bool) (a b : BitVec w) : BitVec w :=
  if b == 0 || divOverflows u a b then maxValue u w else BitVec.ofInt w ((num u a).tdiv (num u b))

/-- The remainder of DIV, with the sign of the dividend, or zero where the division raises (R235). -/
def remainder {w : Nat} (u : Bool) (a b : BitVec w) : BitVec w :=
  if b == 0 || divOverflows u a b then 0 else BitVec.ofInt w ((num u a).tmod (num u b))

/-- `subseq(DESTINATION)`: the GPR that holds the low part of the remainder (R235). -/
def State.subseq (s : State) (d : RegNum) (w : Nat) : Nat :=
  (d.toNat + max 1 (w / s.cfg.gprw.width)) % s.cfg.ngpr

/-- The exceptions of DIV (R235). -/
def divExceptions {w : Nat} (u : Bool) (a b : BitVec w) : List Exc :=
  if b == 0 then [.divisionByZero] else if divOverflows u a b then [.overflow] else []

/-- DIV (R235): the quotient to DESTINATION, then the remainder to the subsequent register. -/
def State.div (s : State) (m : MMode) (u : Bool) (d : RegNum) (src : Src) : State :=
  s.integerOp .div m d src fun a b =>
    s.complete (excMask (divExceptions u a b)) fun t =>
      ((t.writeGpr d (quotient u a b)).writeGprAt (s.subseq d m.width) (remainder u a b)).setFlags
        { intFlags (!u) a b (quotient u a b) with
          divisionByZero := b == 0, overflow := b != 0 && divOverflows u a b }

/-- ADD, register form (R232). -/
def execAddR (m : MMode) (u : Bool) (d : RegNum) (r : RegNum) (s : State) : Host.Outcome State Fault Refusal :=
  .next (s.add m u d (.reg r))

/-- ADD, immediate form (R232). -/
def execAddI (m : MMode) (u : Bool) (d : RegNum) (imm : BitVec 14) (s : State) : Host.Outcome State Fault Refusal :=
  .next (s.add m u d (.imm u imm))

/-- SUB, register form (R233). -/
def execSubR (m : MMode) (u : Bool) (d : RegNum) (r : RegNum) (s : State) : Host.Outcome State Fault Refusal :=
  .next (s.sub m u d (.reg r))

/-- SUB, immediate form (R233). -/
def execSubI (m : MMode) (u : Bool) (d : RegNum) (imm : BitVec 14) (s : State) : Host.Outcome State Fault Refusal :=
  .next (s.sub m u d (.imm u imm))

/-- MUL, register form (R234). -/
def execMulR (m : MMode) (u : Bool) (d : RegNum) (r : RegNum) (s : State) : Host.Outcome State Fault Refusal :=
  .next (s.mul m u d (.reg r))

/-- MUL, immediate form (R234). -/
def execMulI (m : MMode) (u : Bool) (d : RegNum) (imm : BitVec 14) (s : State) : Host.Outcome State Fault Refusal :=
  .next (s.mul m u d (.imm u imm))

/-- DIV, register form (R235). -/
def execDivR (m : MMode) (u : Bool) (d : RegNum) (r : RegNum) (s : State) : Host.Outcome State Fault Refusal :=
  .next (s.div m u d (.reg r))

/-- DIV, immediate form (R235). -/
def execDivI (m : MMode) (u : Bool) (d : RegNum) (imm : BitVec 14) (s : State) : Host.Outcome State Fault Refusal :=
  .next (s.div m u d (.imm u imm))

end Sys2Proof.Machine
end

