-- ==== Sys2Proof/Machine/BitOps.lean ====
section
/-! DEFINITION. Bit operations: SB, RB, TB, RVB (44_bit_ops.md).  The bit number is the unsigned second operand; one
beyond the mode or the ALU width raises INVALID OPERATION (R290). -/
namespace Sys2Proof.Machine

/-- The bits `hi` down to 0 reversed, the others kept (R294). -/
def reverseLow {w : Nat} (a : BitVec w) (hi : Nat) : BitVec w :=
  BitVec.ofFnLE fun i : Fin w => if i.val ≤ hi then a.getLsbD (hi - i.val) else a.getLsbD i.val

/-- The frame of a bit operation: an invalid bit number raises INVALID OPERATION, which when impotent leaves the
destination and sets the comparison flags and INVALID OPERATION (R290; 92_eei_decisions.md D23). -/
def State.bitOp (s : State) (mn : Mnemonic) (m : MMode) (d : RegNum) (src : Src)
    (f : BitVec m.width → Nat → BitVec m.width) : State :=
  s.integerOp mn m d src fun a b =>
    if m.width ≤ b.toNat ∨ s.cfg.aluw.width ≤ b.toNat then
      s.raise (excBit Exc.invalidOperation.num) fun t =>
        t.setFlags { compareFlags false a b with invalidOperation := true }
    else ((s.writeGpr d (f a b.toNat)).setFlags (intFlags false a b (f a b.toNat))).advance

/-- SB (R291). -/
def State.setBitOp (s : State) (m : MMode) (d : RegNum) (src : Src) : State :=
  s.bitOp .sb m d src fun a c => setBit a c true

/-- RB (R292). -/
def State.resetBitOp (s : State) (m : MMode) (d : RegNum) (src : Src) : State :=
  s.bitOp .rb m d src fun a c => setBit a c false

/-- TB (R293): the tested bit, 0 or 1, as a value of the mode's width. -/
def State.testBitOp (s : State) (m : MMode) (d : RegNum) (src : Src) : State :=
  s.bitOp .tb m d src fun a c => BitVec.ofNat m.width (a.getLsbD c).toNat

/-- RVB (R294). -/
def State.reverseBitsOp (s : State) (m : MMode) (d : RegNum) (src : Src) : State :=
  s.bitOp .rvb m d src fun a c => reverseLow a c

/-- SB, register form (R291). -/
def execSbR (m : MMode) (d : RegNum) (r : RegNum) (s : State) : Host.Outcome State Fault Refusal :=
  .next (s.setBitOp m d (.reg r))

/-- SB, immediate form (R291). -/
def execSbI (m : MMode) (d : RegNum) (imm : BitVec 14) (s : State) : Host.Outcome State Fault Refusal :=
  .next (s.setBitOp m d (.imm false imm))

/-- RB, register form (R292). -/
def execRbR (m : MMode) (d : RegNum) (r : RegNum) (s : State) : Host.Outcome State Fault Refusal :=
  .next (s.resetBitOp m d (.reg r))

/-- RB, immediate form (R292). -/
def execRbI (m : MMode) (d : RegNum) (imm : BitVec 14) (s : State) : Host.Outcome State Fault Refusal :=
  .next (s.resetBitOp m d (.imm true imm))

/-- TB, register form (R293). -/
def execTbR (m : MMode) (d : RegNum) (r : RegNum) (s : State) : Host.Outcome State Fault Refusal :=
  .next (s.testBitOp m d (.reg r))

/-- TB, immediate form (R293). -/
def execTbI (m : MMode) (d : RegNum) (imm : BitVec 14) (s : State) : Host.Outcome State Fault Refusal :=
  .next (s.testBitOp m d (.imm false imm))

/-- RVB, register form (R294). -/
def execRvbR (m : MMode) (d : RegNum) (r : RegNum) (s : State) : Host.Outcome State Fault Refusal :=
  .next (s.reverseBitsOp m d (.reg r))

/-- RVB, immediate form (R294). -/
def execRvbI (m : MMode) (d : RegNum) (imm : BitVec 14) (s : State) : Host.Outcome State Fault Refusal :=
  .next (s.reverseBitsOp m d (.imm true imm))

end Sys2Proof.Machine
end

