-- ==== Sys2Proof/Machine/DataTransfer.lean ====
section
/-! DEFINITION. Data transfer, MOV (40_data_transfer.md): loads and stores with their atomic forms, inter-register
transfers, the load immediate. -/
namespace Sys2Proof.Machine

/-- A transfer width is provided: at most MAXXFER (R217). -/
def State.transferOk (s : State) (m : MMode) : Bool := m.le s.cfg.maxXfer

/-- A load, load-locked where `locked` (R201, R203, R207): the index is written first, the data last (R206). -/
def State.load (s : State) (locked : Bool) (m : MMode) (d : RegNum) (a : Addr) : State :=
  s.checkOther (s.transferOk m) (s.gprsExist (d :: Addr.regs a)) <|
    let ea := s.effective m a
    match s.memRead .read ea m.width, s.physRange .read ea m.bytes with
    | some v, some ps =>
      let t := (s.applyIndex (s.indexWrite m a)).writeGpr d v
      { t with resv := if locked then some { addr := ea, bytes := m.bytes, phys := ps } else t.resv }.advance
    | _, _ => s.dBusError

/-- A plain store (R202, R204): the data is read before the index is written (R206). -/
def State.store (s : State) (m : MMode) (d : RegNum) (a : Addr) : State :=
  s.checkOther (s.transferOk m) (s.gprsExist (d :: Addr.regs a)) <|
    match s.memWrite (s.effective m a) (s.readGpr d m.width) with
    | some t => (t.applyIndex (s.indexWrite m a)).advance
    | none => s.dBusError

/-- A store-conditional succeeds: the reservation is for exactly these bytes and the environment lets it (R208,
20_memory.md R116). -/
def State.reserved (s : State) (ea n : Nat) : Bool :=
  match s.resv with
  | some r => r.addr == ea && r.bytes == n && s.maySucceed
  | none => false

/-- A store-conditional (R208): on success the store happens and DESTINATION receives 1, else 0; the reservation is
gone either way; a failing bus access changes nothing. -/
def State.storeCond (s : State) (m : MMode) (d : RegNum) (a : Addr) : State :=
  s.checkOther (s.transferOk m) (s.gprsExist (d :: Addr.regs a)) <|
    let ea := s.effective m a
    let finish (t : State) (result : BitVec m.width) : State :=
      (({ t with resv := none }.applyIndex (s.indexWrite m a)).writeGpr d result).advance
    if s.reserved ea m.bytes then
      match s.memWrite ea (s.readGpr d m.width) with
      | some t => finish t 1
      | none => s.dBusError
    else finish s 0

/-- REG <- REG (R209). -/
def State.movRegReg (s : State) (m : MMode) (d r : RegNum) : State :=
  s.checkOther (s.transferOk m) (s.gprsExist [d, r]) <|
    (s.writeGpr d (s.readGpr r m.width)).advance

/-- REG <- SPC (R210): every special register is readable in both modes. -/
def State.movRegSpc (s : State) (m : MMode) (d r : RegNum) : State :=
  s.checkOther (s.transferOk m) (s.gprsExist [d] && decide (r.toNat < numSpc)) <|
    (s.writeGpr d (s.readSpc r m.width)).advance

/-- A write to `spc13` or `spc14` resets IC; any other advances it (R211, 10_state.md R51). -/
def State.afterSpcWrite (s : State) (slots : List Nat) : State :=
  if slots.any fun k => k == 13 || k == 14 then { s with ic := 0 } else s.advance

/-- SPC <- REG (R211): every touched slot is checked, and no part of the write happens if a check fails. -/
def State.movSpcReg (s : State) (m : MMode) (d r : RegNum) : State :=
  s.checkOther (s.transferOk m) (decide (d.toNat < numSpc) && s.gprsExist [r]) <|
    let slots := spcTouched d m.width
    let new := s.writeSpc d (s.readGpr r m.width)
    if !s.systemMode && slots.any (fun k => !userWritable k) then s.raiseSkip .systemInstruction
    else if s.systemMode && slots.any (fun k => k == 0 || k == 1) then s.raiseSkip .invalidOperation
    else if slots.contains 15 && s.badBank new.scr then s.raiseSkip .unimplementedGprBank
    else new.afterSpcWrite slots

/-- REG <- DSP (R212). -/
def State.movRegDsp (s : State) (m : MMode) (d r : RegNum) : State :=
  match s.cfg.dsp with
  | some f =>
    s.checkOther (s.transferOk m) (s.gprsExist [d] && decide (r.toNat < f.count)) <|
      (s.writeGpr d (s.readDsp f r m.width)).advance
  | none => s.checkOther (s.transferOk m) false s

/-- DSP <- REG (R213). -/
def State.movDspReg (s : State) (m : MMode) (d r : RegNum) : State :=
  match s.cfg.dsp with
  | some f =>
    s.checkOther (s.transferOk m) (decide (d.toNat < f.count) && s.gprsExist [r]) <|
      (s.writeDsp f d (s.readGpr r m.width)).advance
  | none => s.checkOther (s.transferOk m) false s

/-- REG <- FPR (R214). -/
def State.movRegFpr (s : State) (m : MMode) (d r : RegNum) : State :=
  match s.cfg.fpr with
  | some f =>
    s.checkOther (s.transferOk m) (s.gprsExist [d] && decide (r.toNat < f.count)) <|
      (s.writeGpr d (s.readFpr f r m.width)).advance
  | none => s.checkOther (s.transferOk m) false s

/-- FPR <- REG (R215). -/
def State.movFprReg (s : State) (m : MMode) (d r : RegNum) : State :=
  match s.cfg.fpr with
  | some f =>
    s.checkOther (s.transferOk m) (decide (d.toNat < f.count) && s.gprsExist [r]) <|
      (s.writeFpr f d (s.readGpr r m.width)).advance
  | none => s.checkOther (s.transferOk m) false s

/-- The implementation-specific file an AUXCODE of an inter-register transfer reaches: its place in the configuration, the
file, and whether the transfer goes to the GPR file (10_state.md R65; log 38). -/
def findExtra (files : List ExtraFile) (k : Nat) (aux : BitVec 4) : Option (Nat × ExtraFile × Bool) :=
  match files with
  | [] => none
  | f :: rest =>
    if f.toGpr = some aux then some (k, f, true)
    else if f.fromGpr = some aux then some (k, f, false)
    else findExtra rest (k + 1) aux

/-- A word with one of the nine free AUXCODEs of an inter-register transfer, on an implementation that uses the code for a
file of its own: the transfer, as the one of a DSP register (R65, 30_encoding.md R147; log 38). -/
def State.extraTransfer (s : State) (w : Word) : Option State :=
  let g := Fields.ofWord w
  let m := MMode.ofCode g.mmode
  if g.group = 3 ∧ g.b26 = false ∧ g.b25 = false ∧ g.b24 = true then
    (findExtra s.cfg.extraFiles 0 g.aux).map fun e =>
      if e.2.2 then
        s.checkOther (s.transferOk m) (s.gprsExist [g.dest] && decide (g.lo.toNat < e.2.1.count)) <|
          (s.writeGpr g.dest (s.readExtra e.1 e.2.1 g.lo m.width)).advance
      else
        s.checkOther (s.transferOk m) (decide (g.dest.toNat < e.2.1.count) && s.gprsExist [g.lo]) <|
          (s.writeExtra e.1 e.2.1 g.dest (s.readGpr g.lo m.width)).advance
  else none

/-- The load immediate (R216): IMMEDIATE18 extended, or truncated in a mode of 16 bits or less. -/
def State.loadImm (s : State) (m : MMode) (u : Bool) (d : RegNum) (imm : BitVec 18) : State :=
  s.checkOther (s.transferOk m) (s.gprsExist [d]) <|
    (s.writeGpr d (extend u m.width imm)).advance

/-- MOV, load, displacement addressing (R201). -/
def execMovLoadDisp (m : MMode) (d : RegNum) (base : RegNum) (off : BitVec 12) (s : State) : Host.Outcome State Fault Refusal :=
  .next (s.load false m d (.disp base off))

/-- MOV, load-locked, displacement addressing (R207). -/
def execMovLoadLockedDisp (m : MMode) (d : RegNum) (base : RegNum) (off : BitVec 12) (s : State) : Host.Outcome State Fault Refusal :=
  .next (s.load true m d (.disp base off))

/-- MOV, store, displacement addressing (R202). -/
def execMovStoreDisp (m : MMode) (d : RegNum) (base : RegNum) (off : BitVec 12) (s : State) : Host.Outcome State Fault Refusal :=
  .next (s.store m d (.disp base off))

/-- MOV, store-conditional, displacement addressing (R208). -/
def execMovStoreCondDisp (m : MMode) (d : RegNum) (base : RegNum) (off : BitVec 12) (s : State) : Host.Outcome State Fault Refusal :=
  .next (s.storeCond m d (.disp base off))

/-- MOV, load, register addressing (R203). -/
def execMovLoadReg (m : MMode) (d : RegNum) (idx : RegNum) (s : State) : Host.Outcome State Fault Refusal :=
  .next (s.load false m d (.reg idx .keep))

/-- MOV, load, register addressing with post-increment (R203). -/
def execMovLoadRegPostInc (m : MMode) (d : RegNum) (idx : RegNum) (s : State) : Host.Outcome State Fault Refusal :=
  .next (s.load false m d (.reg idx .postInc))

/-- MOV, load, register addressing with post-decrement (R203). -/
def execMovLoadRegPostDec (m : MMode) (d : RegNum) (idx : RegNum) (s : State) : Host.Outcome State Fault Refusal :=
  .next (s.load false m d (.reg idx .postDec))

/-- MOV, load, register addressing with pre-increment (R203). -/
def execMovLoadRegPreInc (m : MMode) (d : RegNum) (idx : RegNum) (s : State) : Host.Outcome State Fault Refusal :=
  .next (s.load false m d (.reg idx .preInc))

/-- MOV, load, register addressing with pre-decrement (R203). -/
def execMovLoadRegPreDec (m : MMode) (d : RegNum) (idx : RegNum) (s : State) : Host.Outcome State Fault Refusal :=
  .next (s.load false m d (.reg idx .preDec))

/-- MOV, load, indexed addressing (R203). -/
def execMovLoadIdx (m : MMode) (d : RegNum) (base : RegNum) (idx : RegNum) (s : State) : Host.Outcome State Fault Refusal :=
  .next (s.load false m d (.indexed base idx .keep))

/-- MOV, load, indexed addressing with post-increment (R203). -/
def execMovLoadIdxPostInc (m : MMode) (d : RegNum) (base : RegNum) (idx : RegNum) (s : State) : Host.Outcome State Fault Refusal :=
  .next (s.load false m d (.indexed base idx .postInc))

/-- MOV, load, indexed addressing with post-decrement (R203). -/
def execMovLoadIdxPostDec (m : MMode) (d : RegNum) (base : RegNum) (idx : RegNum) (s : State) : Host.Outcome State Fault Refusal :=
  .next (s.load false m d (.indexed base idx .postDec))

/-- MOV, load, indexed addressing with pre-increment (R203). -/
def execMovLoadIdxPreInc (m : MMode) (d : RegNum) (base : RegNum) (idx : RegNum) (s : State) : Host.Outcome State Fault Refusal :=
  .next (s.load false m d (.indexed base idx .preInc))

/-- MOV, load, indexed addressing with pre-decrement (R203). -/
def execMovLoadIdxPreDec (m : MMode) (d : RegNum) (base : RegNum) (idx : RegNum) (s : State) : Host.Outcome State Fault Refusal :=
  .next (s.load false m d (.indexed base idx .preDec))

/-- MOV, load-locked, register addressing (R207). -/
def execMovLoadLockedReg (m : MMode) (d : RegNum) (idx : RegNum) (s : State) : Host.Outcome State Fault Refusal :=
  .next (s.load true m d (.reg idx .keep))

/-- MOV, load-locked, register addressing with post-increment (R207). -/
def execMovLoadLockedRegPostInc (m : MMode) (d : RegNum) (idx : RegNum) (s : State) : Host.Outcome State Fault Refusal :=
  .next (s.load true m d (.reg idx .postInc))

/-- MOV, load-locked, register addressing with post-decrement (R207). -/
def execMovLoadLockedRegPostDec (m : MMode) (d : RegNum) (idx : RegNum) (s : State) : Host.Outcome State Fault Refusal :=
  .next (s.load true m d (.reg idx .postDec))

/-- MOV, load-locked, register addressing with pre-increment (R207). -/
def execMovLoadLockedRegPreInc (m : MMode) (d : RegNum) (idx : RegNum) (s : State) : Host.Outcome State Fault Refusal :=
  .next (s.load true m d (.reg idx .preInc))

/-- MOV, load-locked, register addressing with pre-decrement (R207). -/
def execMovLoadLockedRegPreDec (m : MMode) (d : RegNum) (idx : RegNum) (s : State) : Host.Outcome State Fault Refusal :=
  .next (s.load true m d (.reg idx .preDec))

/-- MOV, load-locked, indexed addressing (R207). -/
def execMovLoadLockedIdx (m : MMode) (d : RegNum) (base : RegNum) (idx : RegNum) (s : State) : Host.Outcome State Fault Refusal :=
  .next (s.load true m d (.indexed base idx .keep))

/-- MOV, load-locked, indexed addressing with post-increment (R207). -/
def execMovLoadLockedIdxPostInc (m : MMode) (d : RegNum) (base : RegNum) (idx : RegNum) (s : State) : Host.Outcome State Fault Refusal :=
  .next (s.load true m d (.indexed base idx .postInc))

/-- MOV, load-locked, indexed addressing with post-decrement (R207). -/
def execMovLoadLockedIdxPostDec (m : MMode) (d : RegNum) (base : RegNum) (idx : RegNum) (s : State) : Host.Outcome State Fault Refusal :=
  .next (s.load true m d (.indexed base idx .postDec))

/-- MOV, load-locked, indexed addressing with pre-increment (R207). -/
def execMovLoadLockedIdxPreInc (m : MMode) (d : RegNum) (base : RegNum) (idx : RegNum) (s : State) : Host.Outcome State Fault Refusal :=
  .next (s.load true m d (.indexed base idx .preInc))

/-- MOV, load-locked, indexed addressing with pre-decrement (R207). -/
def execMovLoadLockedIdxPreDec (m : MMode) (d : RegNum) (base : RegNum) (idx : RegNum) (s : State) : Host.Outcome State Fault Refusal :=
  .next (s.load true m d (.indexed base idx .preDec))

/-- MOV, store, register addressing (R204). -/
def execMovStoreReg (m : MMode) (d : RegNum) (idx : RegNum) (s : State) : Host.Outcome State Fault Refusal :=
  .next (s.store m d (.reg idx .keep))

/-- MOV, store, register addressing with post-increment (R204). -/
def execMovStoreRegPostInc (m : MMode) (d : RegNum) (idx : RegNum) (s : State) : Host.Outcome State Fault Refusal :=
  .next (s.store m d (.reg idx .postInc))

/-- MOV, store, register addressing with post-decrement (R204). -/
def execMovStoreRegPostDec (m : MMode) (d : RegNum) (idx : RegNum) (s : State) : Host.Outcome State Fault Refusal :=
  .next (s.store m d (.reg idx .postDec))

/-- MOV, store, register addressing with pre-increment (R204). -/
def execMovStoreRegPreInc (m : MMode) (d : RegNum) (idx : RegNum) (s : State) : Host.Outcome State Fault Refusal :=
  .next (s.store m d (.reg idx .preInc))

/-- MOV, store, register addressing with pre-decrement (R204). -/
def execMovStoreRegPreDec (m : MMode) (d : RegNum) (idx : RegNum) (s : State) : Host.Outcome State Fault Refusal :=
  .next (s.store m d (.reg idx .preDec))

/-- MOV, store, indexed addressing (R204). -/
def execMovStoreIdx (m : MMode) (d : RegNum) (base : RegNum) (idx : RegNum) (s : State) : Host.Outcome State Fault Refusal :=
  .next (s.store m d (.indexed base idx .keep))

/-- MOV, store, indexed addressing with post-increment (R204). -/
def execMovStoreIdxPostInc (m : MMode) (d : RegNum) (base : RegNum) (idx : RegNum) (s : State) : Host.Outcome State Fault Refusal :=
  .next (s.store m d (.indexed base idx .postInc))

/-- MOV, store, indexed addressing with post-decrement (R204). -/
def execMovStoreIdxPostDec (m : MMode) (d : RegNum) (base : RegNum) (idx : RegNum) (s : State) : Host.Outcome State Fault Refusal :=
  .next (s.store m d (.indexed base idx .postDec))

/-- MOV, store, indexed addressing with pre-increment (R204). -/
def execMovStoreIdxPreInc (m : MMode) (d : RegNum) (base : RegNum) (idx : RegNum) (s : State) : Host.Outcome State Fault Refusal :=
  .next (s.store m d (.indexed base idx .preInc))

/-- MOV, store, indexed addressing with pre-decrement (R204). -/
def execMovStoreIdxPreDec (m : MMode) (d : RegNum) (base : RegNum) (idx : RegNum) (s : State) : Host.Outcome State Fault Refusal :=
  .next (s.store m d (.indexed base idx .preDec))

/-- MOV, store-conditional, register addressing (R208). -/
def execMovStoreCondReg (m : MMode) (d : RegNum) (idx : RegNum) (s : State) : Host.Outcome State Fault Refusal :=
  .next (s.storeCond m d (.reg idx .keep))

/-- MOV, store-conditional, register addressing with post-increment (R208). -/
def execMovStoreCondRegPostInc (m : MMode) (d : RegNum) (idx : RegNum) (s : State) : Host.Outcome State Fault Refusal :=
  .next (s.storeCond m d (.reg idx .postInc))

/-- MOV, store-conditional, register addressing with post-decrement (R208). -/
def execMovStoreCondRegPostDec (m : MMode) (d : RegNum) (idx : RegNum) (s : State) : Host.Outcome State Fault Refusal :=
  .next (s.storeCond m d (.reg idx .postDec))

/-- MOV, store-conditional, register addressing with pre-increment (R208). -/
def execMovStoreCondRegPreInc (m : MMode) (d : RegNum) (idx : RegNum) (s : State) : Host.Outcome State Fault Refusal :=
  .next (s.storeCond m d (.reg idx .preInc))

/-- MOV, store-conditional, register addressing with pre-decrement (R208). -/
def execMovStoreCondRegPreDec (m : MMode) (d : RegNum) (idx : RegNum) (s : State) : Host.Outcome State Fault Refusal :=
  .next (s.storeCond m d (.reg idx .preDec))

/-- MOV, store-conditional, indexed addressing (R208). -/
def execMovStoreCondIdx (m : MMode) (d : RegNum) (base : RegNum) (idx : RegNum) (s : State) : Host.Outcome State Fault Refusal :=
  .next (s.storeCond m d (.indexed base idx .keep))

/-- MOV, store-conditional, indexed addressing with post-increment (R208). -/
def execMovStoreCondIdxPostInc (m : MMode) (d : RegNum) (base : RegNum) (idx : RegNum) (s : State) : Host.Outcome State Fault Refusal :=
  .next (s.storeCond m d (.indexed base idx .postInc))

/-- MOV, store-conditional, indexed addressing with post-decrement (R208). -/
def execMovStoreCondIdxPostDec (m : MMode) (d : RegNum) (base : RegNum) (idx : RegNum) (s : State) : Host.Outcome State Fault Refusal :=
  .next (s.storeCond m d (.indexed base idx .postDec))

/-- MOV, store-conditional, indexed addressing with pre-increment (R208). -/
def execMovStoreCondIdxPreInc (m : MMode) (d : RegNum) (base : RegNum) (idx : RegNum) (s : State) : Host.Outcome State Fault Refusal :=
  .next (s.storeCond m d (.indexed base idx .preInc))

/-- MOV, store-conditional, indexed addressing with pre-decrement (R208). -/
def execMovStoreCondIdxPreDec (m : MMode) (d : RegNum) (base : RegNum) (idx : RegNum) (s : State) : Host.Outcome State Fault Refusal :=
  .next (s.storeCond m d (.indexed base idx .preDec))

/-- MOV, REG <- REG (R209). -/
def execMovRegReg (m : MMode) (d s : RegNum) (st : State) : Host.Outcome State Fault Refusal :=
  .next (st.movRegReg m d s)

/-- MOV, REG <- SPC (R210). -/
def execMovRegSpc (m : MMode) (d s : RegNum) (st : State) : Host.Outcome State Fault Refusal :=
  .next (st.movRegSpc m d s)

/-- MOV, SPC <- REG (R211). -/
def execMovSpcReg (m : MMode) (d s : RegNum) (st : State) : Host.Outcome State Fault Refusal :=
  .next (st.movSpcReg m d s)

/-- MOV, REG <- DSP (R212). -/
def execMovRegDsp (m : MMode) (d s : RegNum) (st : State) : Host.Outcome State Fault Refusal :=
  .next (st.movRegDsp m d s)

/-- MOV, DSP <- REG (R213). -/
def execMovDspReg (m : MMode) (d s : RegNum) (st : State) : Host.Outcome State Fault Refusal :=
  .next (st.movDspReg m d s)

/-- MOV, REG <- FPR (R214). -/
def execMovRegFpr (m : MMode) (d s : RegNum) (st : State) : Host.Outcome State Fault Refusal :=
  .next (st.movRegFpr m d s)

/-- MOV, FPR <- REG (R215). -/
def execMovFprReg (m : MMode) (d s : RegNum) (st : State) : Host.Outcome State Fault Refusal :=
  .next (st.movFprReg m d s)

/-- MOV, load immediate (R216). -/
def execMovImm (m : MMode) (u : Bool) (d : RegNum) (imm : BitVec 18) (s : State) : Host.Outcome State Fault Refusal :=
  .next (s.loadImm m u d imm)

end Sys2Proof.Machine
end

