-- ==== Sys2Proof/Machine/Float.lean ====
section
/-! DEFINITION. Floating-point values, rounding, and the exception and flag procedure of one FP instruction
(45_floating_point.md R310 to R315).  Every operation is computed exactly, as a quotient of naturals times a power of two,
and rounded once.  The formats are those of IEEE 754-2008 (R312; 92_eei_decisions.md D18; log 13, 27). -/
namespace Sys2Proof.Machine

/-! ## Values of a format -/

/-- A floating-point value (R312). -/
inductive FpVal where
  /-- A NaN with its sign, whether it is quiet, and its fraction. -/
  | nan (sign quiet : Bool) (frac : Nat)
  | inf (sign : Bool)
  /-- `mant * 2^exp` with a sign; a zero where `mant` is 0. -/
  | fin (sign : Bool) (mant : Nat) (exp : Int)
deriving DecidableEq, Repr

/-- The exponent bias `2^(e-1) - 1` (R312). -/
def FpFmt.bias (f : FpFmt) : Nat := 2 ^ (f.expBits - 1) - 1

/-- The exponent of the last place of the smallest normal binade, the quantum of denormalized numbers. -/
def FpFmt.minQuantum (f : FpFmt) : Int := 1 - (FpFmt.bias f : Int) - (f.fracBits : Int)

/-- The pattern of infinity without its sign. -/
def FpFmt.infBits (f : FpFmt) : Nat := (2 ^ f.expBits - 1) * 2 ^ f.fracBits

/-- A pattern with its sign bit. -/
def FpFmt.signed (f : FpFmt) (sign : Bool) (mag : Nat) : Nat :=
  (if sign then 2 ^ (f.expBits + f.fracBits) else 0) + mag

/-- The quiet NaN the hardware writes: positive, with only the top fraction bit set (R312). -/
def FpFmt.quietNan (f : FpFmt) : Nat := FpFmt.infBits f + 2 ^ (f.fracBits - 1)

/-- The sign bit of a pattern. -/
def FpFmt.signBit (f : FpFmt) (bits : Nat) : Bool := bits.testBit (f.expBits + f.fracBits)

/-- The value of a pattern (R312). -/
def FpFmt.unpack (f : FpFmt) (bits : Nat) : FpVal :=
  let sign := FpFmt.signBit f bits
  let e := bits / 2 ^ f.fracBits % 2 ^ f.expBits
  let frac := bits % 2 ^ f.fracBits
  if e = 2 ^ f.expBits - 1 then
    if frac = 0 then .inf sign else .nan sign (frac.testBit (f.fracBits - 1)) frac
  else if e = 0 then .fin sign frac (FpFmt.minQuantum f)
  else .fin sign (2 ^ f.fracBits + frac) ((e : Int) - 1 + FpFmt.minQuantum f)

/-- The value is a NaN. -/
def FpVal.isNan (x : FpVal) : Bool :=
  match x with
  | .nan _ _ _ => true
  | _ => false

/-- The value is a signaling NaN. -/
def FpVal.isSignaling (x : FpVal) : Bool :=
  match x with
  | .nan _ quiet _ => !quiet
  | _ => false

/-- A value unpacked from the format is a denormalized number (R312). -/
def FpVal.isDenormal (f : FpFmt) (x : FpVal) : Bool :=
  match x with
  | .fin _ mant _ => mant != 0 && decide (mant < 2 ^ f.fracBits)
  | _ => false

/-- The value with the other sign. -/
def FpVal.neg (x : FpVal) : FpVal :=
  match x with
  | .nan s q fr => .nan s q fr
  | .inf s => .inf !s
  | .fin s m e => .fin (!s) m e

/-- The integer `± mant * 2^(exp - e)`, for `e` at most `exp`. -/
def scaled (sign : Bool) (mant : Nat) (exp e : Int) : Int :=
  let n : Nat := mant * 2 ^ (exp - e).toNat
  if sign then -(n : Int) else n

/-- The comparison of two values; none where one is a NaN; the two zeros are equal (R315). -/
def FpVal.compare (x y : FpVal) : Option Ordering :=
  match x, y with
  | .nan _ _ _, _ => none
  | _, .nan _ _ _ => none
  | .inf s, .inf t => some (if s = t then .eq else if s then .lt else .gt)
  | .inf s, .fin _ _ _ => some (if s then .lt else .gt)
  | .fin _ _ _, .inf t => some (if t then .gt else .lt)
  | .fin s m e, .fin t n g =>
    let q := min e g
    some (compareOfLessAndEq (scaled s m e q) (scaled t n g q))

/-! ## Rounding -/

/-- The assigned rounding modes (10_state.md R57). -/
inductive Rounding where
  | nearestEven | nearestOdd | nearestAway | nearestPos | nearestNeg | nearestZero
  | away | positive | negative | toZero
deriving DecidableEq, Repr

/-- The rounding mode of a UCR[11:8] code; none where the code is not assigned (R57). -/
def Rounding.ofCode (c : BitVec 4) : Option Rounding :=
  match c with
  | 0 => some .nearestEven | 1 => some .nearestOdd | 2 => some .nearestAway | 3 => some .nearestPos
  | 4 => some .nearestNeg | 5 => some .nearestZero | 10 => some .away | 11 => some .positive
  | 12 => some .negative | 13 => some .toZero
  | _ => none

/-- The rounding mode in force (R313). -/
def State.rounding (s : State) : Option Rounding := Rounding.ofCode (s.ucr.extractLsb' 8 4)

/-- The magnitude `q + r/d`, with `r < d`, is rounded up to `q + 1` (R313). -/
def Rounding.up (mode : Rounding) (sign : Bool) (q r d : Nat) : Bool :=
  let nearest (tie : Bool) : Bool := decide (d < 2 * r) || (decide (2 * r = d) && tie)
  match mode with
  | .nearestEven => nearest (q % 2 == 1)
  | .nearestOdd => nearest (q % 2 == 0)
  | .nearestAway => nearest true
  | .nearestPos => nearest !sign
  | .nearestNeg => nearest sign
  | .nearestZero => nearest false
  | .away => r != 0
  | .positive => r != 0 && !sign
  | .negative => r != 0 && sign
  | .toZero => false

/-- `floor(log2(n/d))` for positive `n` and `d`. -/
def floorLog (n d : Nat) : Int :=
  let l : Int := (n.log2 : Int) - (d.log2 : Int)
  if d * 2 ^ l.toNat ≤ n * 2 ^ (-l).toNat then l else l - 1

/-- The quotient and remainder of `n/d * 2^k` by one, as quotient, remainder and divisor. -/
def scaledDiv (n d : Nat) (k : Int) : Nat × Nat × Nat :=
  let top := n * 2 ^ k.toNat
  let bot := d * 2 ^ (-k).toNat
  (top / bot, top % bot, bot)

/-- The quantum exponent a positive value `n/d * 2^x` is rounded at (R312). -/
def FpFmt.quantum (f : FpFmt) (n d : Nat) (x : Int) : Int :=
  max (floorLog n d + x - (f.fracBits : Int)) (FpFmt.minQuantum f)

/-- The pattern, without its sign, of a positive value `n/d * 2^x` rounded as if the exponent range had no upper end, and
whether it is exact. -/
def FpFmt.roundMag (f : FpFmt) (mode : Rounding) (sign : Bool) (n d : Nat) (x : Int) : Nat × Bool :=
  let u := FpFmt.quantum f n d x
  let qr := scaledDiv n d (x - u)
  let q := qr.1 + (Rounding.up mode sign qr.1 qr.2.1 qr.2.2).toNat
  ((u - FpFmt.minQuantum f).toNat * 2 ^ f.fracBits + q, qr.2.1 == 0)

/-- The value `n/d * 2^x` is below the smallest normal number (R314, tininess before rounding, D45). -/
def FpFmt.tiny (f : FpFmt) (n d : Nat) (x : Int) : Bool := decide (floorLog n d + x < 1 - (FpFmt.bias f : Int))

/-- What an overflow delivers: infinity or the largest finite number, by the rounding mode (R314). -/
def FpFmt.overflowBits (f : FpFmt) (mode : Rounding) (sign : Bool) : Nat :=
  let toInf := match mode with
    | .toZero => false
    | .positive => !sign
    | .negative => sign
    | _ => true
  FpFmt.signed f sign (if toInf then FpFmt.infBits f else FpFmt.infBits f - 1)

/-! ## The outcome of one operation -/

/-- What an FP operation delivers, before the exception procedure (R314). -/
structure FpCalc where
  /-- The pattern in the destination format, with its sign. -/
  bits : Nat
  /-- The instruction's invalid condition holds. -/
  invalid : Bool := false
  /-- FP DIVISION BY ZERO. -/
  divZero : Bool := false
  /-- The rounded result exceeds the largest finite number. -/
  overflow : Bool := false
  /-- The exact result is tiny and not zero. -/
  tiny : Bool := false
  /-- The rounded result differs from the exact one. -/
  inexact : Bool := false
deriving DecidableEq, Repr

/-- An invalid operation: a quiet NaN (R314). -/
def FpFmt.invalidResult (f : FpFmt) : FpCalc := { bits := FpFmt.quietNan f, invalid := true }

/-- A NaN result of FADD, FSUB, FMUL, FDIV, FMAD or FMSU is an invalid operation and delivers the quiet NaN (R316 to R319,
R330, R353, R354).  Their results that are rounded under an assigned code are no NaN; a free pattern can be one (log 11). -/
def FpFmt.nanInvalid (f : FpFmt) (c : FpCalc) : FpCalc :=
  if FpVal.isNan (FpFmt.unpack f c.bits) then FpFmt.invalidResult f else c

/-- An infinity. -/
def FpFmt.infResult (f : FpFmt) (sign : Bool) : FpCalc := { bits := FpFmt.signed f sign (FpFmt.infBits f) }

/-- A zero. -/
def FpFmt.zeroResult (f : FpFmt) (sign : Bool) : FpCalc := { bits := FpFmt.signed f sign 0 }

/-- An exactly representable value `± n * 2^x`, `n` positive. -/
def FpFmt.exactResult (f : FpFmt) (sign : Bool) (n : Nat) (x : Int) : FpCalc :=
  { bits := FpFmt.signed f sign (FpFmt.roundMag f .toZero sign n 1 x).1, tiny := FpFmt.tiny f n 1 x }

/-- The result under an unassigned rounding code: a FREE VALUE (R313; log 11).  What the spec computes from a result, an
overflow where it is an infinity and inexactness where it differs from the exact `± n/d * 2^x`, is computed from it.
DESIGN CHOICE (log 11): a free pattern that is a NaN counts as inexact and raises no FP INVALID OPERATION here; where the
instruction's rule lists a NaN result, `FpFmt.nanInvalid` raises it. -/
def FpFmt.freeResult (f : FpFmt) (sign : Bool) (n d : Nat) (x : Int) (pattern : BitVec 1024) : FpCalc :=
  let bits := pattern.toNat % 2 ^ FpFmt.width f
  let exact := match FpFmt.unpack f bits with
    | .fin t m e =>
      t == sign && m * d * 2 ^ (e - x).toNat == n * 2 ^ (x - e).toNat
    | _ => false
  { bits := bits
    overflow := match FpFmt.unpack f bits with
      | .inf _ => true
      | _ => false
    tiny := FpFmt.tiny f n d x
    inexact := !exact }

/-- The result `± n/d * 2^x`, `n` and `d` positive, rounded to the format under the mode in force (R313, R314). -/
def State.rounded (s : State) (f : FpFmt) (sign : Bool) (n d : Nat) (x : Int) : FpCalc :=
  match s.rounding with
  | none => FpFmt.freeResult f sign n d x (Config.freeFpPattern s.freeCount)
  | some mode =>
    let r := FpFmt.roundMag f mode sign n d x
    if FpFmt.infBits f ≤ r.1 then
      { bits := FpFmt.overflowBits f mode sign, overflow := true, tiny := false, inexact := true }
    else { bits := FpFmt.signed f sign r.1, tiny := FpFmt.tiny f n d x, inexact := !r.2 }

/-- The sign of an exact zero sum of operands of opposite signs: plus under Nearest even (97_fp_vectors.md F11), a FREE
VALUE under any other code, for which the spec states none (log 12). -/
def State.zeroSumSign (s : State) : Bool :=
  match s.rounding with
  | some .nearestEven => false
  | _ => Config.freeSign s.freeCount

/-! ## The operations -/

/-- The sum of two values that are no NaN (R316, R353). -/
def State.fpAdd (s : State) (f : FpFmt) (x y : FpVal) : FpCalc :=
  match x, y with
  | .nan _ _ _, _ => FpFmt.invalidResult f
  | _, .nan _ _ _ => FpFmt.invalidResult f
  | .inf a, .inf b => if a = b then FpFmt.infResult f a else FpFmt.invalidResult f
  | .inf a, .fin _ _ _ => FpFmt.infResult f a
  | .fin _ _ _, .inf b => FpFmt.infResult f b
  | .fin a m e, .fin b n g =>
    let q := min e g
    let sum := scaled a m e q + scaled b n g q
    if sum = 0 then FpFmt.zeroResult f (if a = b then a else s.zeroSumSign)
    else s.rounded f (decide (sum < 0)) sum.natAbs 1 q

/-- The exact product of two values: a value, or none where it is invalid (R318, R353). -/
def fpProduct (x y : FpVal) : Option FpVal :=
  match x, y with
  | .nan _ _ _, _ => none
  | _, .nan _ _ _ => none
  | .inf a, .inf b => some (.inf (a != b))
  | .inf a, .fin b m _ => if m = 0 then none else some (.inf (a != b))
  | .fin a m _, .inf b => if m = 0 then none else some (.inf (a != b))
  | .fin a m e, .fin b n g => some (.fin (a != b) (m * n) (e + g))

/-- A value rounded to the format: an infinity or a zero as it is (R314). -/
def State.fpDeliver (s : State) (f : FpFmt) (x : FpVal) : FpCalc :=
  match x with
  | .nan _ _ _ => FpFmt.invalidResult f
  | .inf a => FpFmt.infResult f a
  | .fin a m e => if m = 0 then FpFmt.zeroResult f a else s.rounded f a m 1 e

/-- The product (R318). -/
def State.fpMul (s : State) (f : FpFmt) (x y : FpVal) : FpCalc :=
  match fpProduct x y with
  | none => FpFmt.invalidResult f
  | some p => s.fpDeliver f p

/-- Multiplication and addition with one rounding (46_fused_multiply.md R353). -/
def State.fpFma (s : State) (f : FpFmt) (x y z : FpVal) : FpCalc :=
  match fpProduct x y with
  | none => FpFmt.invalidResult f
  | some p => s.fpAdd f p z

/-- The quotient (R319). -/
def State.fpDiv (s : State) (f : FpFmt) (x y : FpVal) : FpCalc :=
  match x, y with
  | .nan _ _ _, _ => FpFmt.invalidResult f
  | _, .nan _ _ _ => FpFmt.invalidResult f
  | .inf _, .inf _ => FpFmt.invalidResult f
  | .inf a, .fin b _ _ => FpFmt.infResult f (a != b)
  | .fin a _ _, .inf b => FpFmt.zeroResult f (a != b)
  | .fin a m e, .fin b n g =>
    if n = 0 then
      if m = 0 then FpFmt.invalidResult f else { FpFmt.infResult f (a != b) with divZero := true }
    else if m = 0 then FpFmt.zeroResult f (a != b)
    else s.rounded f (a != b) m n (e - g)

/-- The IEEE remainder: `x - y*n` for the integer `n` nearest to `x/y`, a tie to even; a zero has the sign of `x`
(R320, 92_eei_decisions.md D46). -/
def fpRem (f : FpFmt) (x y : FpVal) : FpCalc :=
  match x, y with
  | .nan _ _ _, _ => FpFmt.invalidResult f
  | _, .nan _ _ _ => FpFmt.invalidResult f
  | .inf _, _ => FpFmt.invalidResult f
  | .fin a m e, .inf _ => if m = 0 then FpFmt.zeroResult f a else FpFmt.exactResult f a m e
  | .fin a m e, .fin _ n g =>
    if n = 0 then FpFmt.invalidResult f
    else
      let q := min e g
      let top := m * 2 ^ (e - q).toNat
      let bot := n * 2 ^ (g - q).toNat
      let r := top % bot
      if r = 0 then FpFmt.zeroResult f a
      else if Rounding.up .nearestEven false (top / bot) r bot then FpFmt.exactResult f (!a) (bot - r) q
      else FpFmt.exactResult f a r q

/-- The integer square root, bit by bit from bit `k - 1` down. -/
def isqrt (n : Nat) : Nat → Nat → Nat
  | 0, r => r
  | k + 1, r => if (r + 2 ^ k) * (r + 2 ^ k) ≤ n then isqrt n k (r + 2 ^ k) else isqrt n k r

/-- The square root of a positive `m * 2^e`: the integer root of `m` scaled to more bits than the format has, with a
last bit that says whether a remainder is left, so that rounding it rounds the exact root (R322). -/
def State.fpSqrtPos (s : State) (f : FpFmt) (m : Nat) (e : Int) : FpCalc :=
  let k := 2 * (f.fracBits + 4) + (e % 2).toNat
  let n := m * 2 ^ k
  let r := isqrt n (n.log2 / 2 + 1) 0
  s.rounded f false (2 * r + (decide (r * r < n)).toNat) 1 ((e - (k : Int)) / 2 - 1)

/-- The fraction of a NaN in another format: its top bits are kept (R328, R329, R330). -/
def nanFraction (src dst : FpFmt) (frac : Nat) : Nat := frac * 2 ^ dst.fracBits / 2 ^ src.fracBits

/-- A quiet NaN of the format (R330). -/
def FpFmt.nanResult (f : FpFmt) (sign : Bool) (frac : Nat) : FpCalc :=
  { bits := FpFmt.signed f sign (FpFmt.infBits f + frac) }

/-- The square root; a quiet NaN passes through (R322, R330). -/
def State.fpSqrt (s : State) (f : FpFmt) (x : FpVal) : FpCalc :=
  match x with
  | .nan sign quiet frac => if quiet then FpFmt.nanResult f sign frac else FpFmt.invalidResult f
  | .inf sign => if sign then FpFmt.invalidResult f else FpFmt.infResult f false
  | .fin sign m e =>
    if m = 0 then FpFmt.zeroResult f sign
    else if sign then FpFmt.invalidResult f
    else s.fpSqrtPos f m e

/-- A finite value rounded to an integer magnitude under a mode, and whether it is exact (R325, R326). -/
def roundInteger (mode : Rounding) (sign : Bool) (m : Nat) (e : Int) : Nat × Bool :=
  let qr := scaledDiv m 1 e
  (qr.1 + (Rounding.up mode sign qr.1 qr.2.1 qr.2.2).toNat, qr.2.1 == 0)

/-- Rounding to an integer in FP format; infinities, zeros and quiet NaNs are returned unchanged, and a result of zero
keeps the sign of the operand (R325, R330; log 13). -/
def State.fpRoundInt (s : State) (f : FpFmt) (x : FpVal) : FpCalc :=
  match x with
  | .nan sign quiet frac => if quiet then FpFmt.nanResult f sign frac else FpFmt.invalidResult f
  | .inf sign => FpFmt.infResult f sign
  | .fin sign m e =>
    if m = 0 then FpFmt.zeroResult f sign
    else
      match s.rounding with
      | none => { FpFmt.freeResult f sign m 1 e (Config.freeFpPattern s.freeCount) with tiny := false }
      | some mode =>
        let n := roundInteger mode sign m e
        if n.1 = 0 then { FpFmt.zeroResult f sign with inexact := !n.2 }
        else
          let r := FpFmt.roundMag f mode sign n.1 1 0
          if FpFmt.infBits f ≤ r.1 then { bits := FpFmt.overflowBits f mode sign, overflow := true, inexact := true }
          else { bits := FpFmt.signed f sign r.1, inexact := !n.2 }

/-- An integer rounded to the format; zero gives +0 (R327). -/
def State.fpOfInt (s : State) (f : FpFmt) (i : Int) : FpCalc :=
  if i = 0 then FpFmt.zeroResult f false else s.rounded f (decide (i < 0)) i.natAbs 1 0

/-- A value of the format `src` in the format `dst` that holds it exactly (R328). -/
def fpExtend (src dst : FpFmt) (x : FpVal) : FpCalc :=
  match x with
  | .nan sign quiet frac =>
    if quiet then FpFmt.nanResult dst sign (nanFraction src dst frac) else FpFmt.invalidResult dst
  | .inf sign => FpFmt.infResult dst sign
  | .fin sign m e => if m = 0 then FpFmt.zeroResult dst sign else FpFmt.exactResult dst sign m e

/-- A value of the format `src` rounded to the format `dst` (R329). -/
def State.fpSqueeze (s : State) (src dst : FpFmt) (x : FpVal) : FpCalc :=
  match x with
  | .nan sign quiet frac =>
    if quiet then FpFmt.nanResult dst sign (nanFraction src dst frac) else FpFmt.invalidResult dst
  | _ => s.fpDeliver dst x

/-! ## Exceptions and flags of one FP instruction -/

/-- The set `S` of R314: the exceptions of an operation among those the instruction lists.  An overflow or underflow adds
FP INEXACT RESULT only where it is impotent itself. -/
def State.fpExceptions (s : State) (listed : List Exc) (denormal : Bool) (c : FpCalc) : List Exc :=
  let inexact :=
    if c.overflow then !s.potent (excBit Exc.fpOverflow.num)
    else if c.tiny then c.inexact && !s.potent (excBit Exc.fpUnderflow.num)
    else c.inexact
  let es := [(Exc.fpDenormalizedOperand, denormal), (.fpInvalidOperation, c.invalid), (.fpDivisionByZero, c.divZero),
    (.fpOverflow, c.overflow), (.fpUnderflow, c.tiny && !c.overflow), (.fpInexactResult, inexact)]
  (es.filter fun e => e.2 && listed.contains e.1).map Prod.fst

/-- The flags that describe an FP result (R315, bits 10 to 15). -/
def fpResultFlags (f : FpFmt) (bits : Nat) : EstFlags :=
  match FpFmt.unpack f bits with
  | .nan _ quiet _ => { nan := true, signalingNan := !quiet }
  | .inf sign => { sign := sign, infinity := true }
  | .fin sign m e => { sign := sign, zero := m == 0, denormalized := FpVal.isDenormal f (.fin sign m e) }

/-- The flags of an FP instruction: the comparison given, the description of the result given, and those of the
exceptions raised (R315). -/
def fpFlags (cmp res : EstFlags) (es : List Exc) (inexact : Bool) : EstFlags :=
  { res with
    invalidOperation := es.contains .fpInvalidOperation
    divisionByZero := es.contains .fpDivisionByZero
    overflow := es.contains .fpOverflow
    underflow := es.contains .fpUnderflow && inexact
    equal := cmp.equal
    greaterThan := cmp.greaterThan
    lessThan := cmp.lessThan
    inexact := es.contains .fpInexactResult
    denormalized := res.denormalized || es.contains .fpDenormalizedOperand }

/-- EQUAL, GREATER THAN and LESS THAN of an FP comparison; none where an operand is a NaN (R315). -/
def fpCompareFlags (x y : FpVal) : EstFlags :=
  { equal := FpVal.compare x y == some .eq
    greaterThan := FpVal.compare x y == some .gt
    lessThan := FpVal.compare x y == some .lt }

/-- THE PROCEDURE OF R314 for an instruction with an FP result in the widest format. -/
def State.fpFinish (s : State) (d : RegNum) (listed : List Exc) (denormal : Bool) (cmp : EstFlags) (c : FpCalc) : State :=
  let es := s.fpExceptions listed denormal c
  s.complete (excMask es) fun t =>
    (t.writeFp d (BitVec.ofNat s.cfg.fpw c.bits)).setFlags
      (fpFlags cmp (fpResultFlags s.cfg.fpFmt c.bits) es c.inexact)

/-- The operand `F(i)` as a value (R311, R312). -/
def State.fpValue (s : State) (i : RegNum) : FpVal := FpFmt.unpack s.cfg.fpFmt (s.readFp i).toNat

end Sys2Proof.Machine
end

