-- ==== Sys2Proof/Machine/FloatingPoint.lean ====
section
/-! DEFINITION. The floating-point instructions FADD to FSQZ (45_floating_point.md); FMAD and FMSU are in
FusedMultiply.lean.  Each lists the exceptions it can raise; the procedure is that of R314. -/
namespace Sys2Proof.Machine

/-- The exceptions FADD, FSUB, FMUL, FMAD and FMSU list (R316, R353). -/
def arithExceptions : List Exc :=
  [.fpInvalidOperation, .fpDenormalizedOperand, .fpOverflow, .fpUnderflow, .fpInexactResult]

/-- The frame of a two-operand FP instruction (R311, R314). -/
def State.fpBinary (s : State) (mn : Mnemonic) (listed : List Exc) (d r : RegNum) (op : FpVal → FpVal → FpCalc) : State :=
  s.checkAlu (s.cfg.implementsFp mn) (s.fpsExist [d, r]) <|
    let x := s.fpValue d
    let y := s.fpValue r
    s.fpFinish d listed (FpVal.isDenormal s.cfg.fpFmt x || FpVal.isDenormal s.cfg.fpFmt y) (fpCompareFlags x y) (op x y)

/-- The frame of a one-operand FP instruction: no comparison flag (R315). -/
def State.fpUnary (s : State) (mn : Mnemonic) (listed : List Exc) (d : RegNum) (op : FpVal → FpCalc) : State :=
  s.checkAlu (s.cfg.implementsFp mn) (s.fpsExist [d]) <|
    let x := s.fpValue d
    s.fpFinish d listed (FpVal.isDenormal s.cfg.fpFmt x) {} (op x)

/-- FADD (R316). -/
def State.fadd (s : State) (d r : RegNum) : State :=
  s.fpBinary .fadd arithExceptions d r fun x y => FpFmt.nanInvalid s.cfg.fpFmt (s.fpAdd s.cfg.fpFmt x y)

/-- FSUB (R317). -/
def State.fsub (s : State) (d r : RegNum) : State :=
  s.fpBinary .fsub arithExceptions d r fun x y =>
    FpFmt.nanInvalid s.cfg.fpFmt (s.fpAdd s.cfg.fpFmt x (FpVal.neg y))

/-- FMUL (R318). -/
def State.fmul (s : State) (d r : RegNum) : State :=
  s.fpBinary .fmul arithExceptions d r fun x y => FpFmt.nanInvalid s.cfg.fpFmt (s.fpMul s.cfg.fpFmt x y)

/-- FDIV (R319). -/
def State.fdiv (s : State) (d r : RegNum) : State :=
  s.fpBinary .fdiv (.fpDivisionByZero :: arithExceptions) d r fun x y =>
    FpFmt.nanInvalid s.cfg.fpFmt (s.fpDiv s.cfg.fpFmt x y)

/-- FREM (R320). -/
def State.frem (s : State) (d r : RegNum) : State :=
  s.fpBinary .frem [.fpInvalidOperation, .fpDenormalizedOperand] d r fun x y => fpRem s.cfg.fpFmt x y

/-- The exceptions of FCMP (R321). -/
def fcmpExceptions (f : FpFmt) (x y : FpVal) : List Exc :=
  (if FpVal.isDenormal f x || FpVal.isDenormal f y then [.fpDenormalizedOperand] else []) ++
  (if FpVal.isSignaling x || FpVal.isSignaling y then [.fpInvalidOperation] else [])

/-- The flags of FCMP (R321). -/
def fcmpFlags (f : FpFmt) (x y : FpVal) : EstFlags :=
  { fpCompareFlags x y with
    unordered := FpVal.isNan x || FpVal.isNan y
    nan := FpVal.isNan x || FpVal.isNan y
    signalingNan := FpVal.isSignaling x || FpVal.isSignaling y
    invalidOperation := FpVal.isSignaling x || FpVal.isSignaling y
    denormalized := FpVal.isDenormal f x || FpVal.isDenormal f y }

/-- FCMP (R321): the flags go to EST and to the low 16 bits of DESTINATION. -/
def State.fcmp (s : State) (d r : RegNum) : State :=
  s.checkAlu (s.cfg.implementsFp .fcmp) (s.fpsExist [d, r]) <|
    let x := s.fpValue d
    let y := s.fpValue r
    let flags := fcmpFlags s.cfg.fpFmt x y
    s.complete (excMask (fcmpExceptions s.cfg.fpFmt x y)) fun t => (t.writeFpPart d flags.bits).setFlags flags

/-- FSQR (R322). -/
def State.fsqr (s : State) (d : RegNum) : State :=
  s.fpUnary .fsqr [.fpInvalidOperation, .fpDenormalizedOperand, .fpUnderflow, .fpInexactResult] d
    fun x => s.fpSqrt s.cfg.fpFmt x

/-- A result that is the operand's pattern with another sign; a signaling NaN is invalid (R323, R324). -/
def fpWithSign (f : FpFmt) (x : FpVal) (bits : Nat) (sign : Bool) : FpCalc :=
  if FpVal.isSignaling x then FpFmt.invalidResult f
  else { bits := FpFmt.signed f sign (bits % 2 ^ (f.expBits + f.fracBits)) }

/-- FABS (R323). -/
def State.fabs (s : State) (d : RegNum) : State :=
  s.fpUnary .fabs [.fpInvalidOperation, .fpDenormalizedOperand] d
    fun x => fpWithSign s.cfg.fpFmt x (s.readFp d).toNat false

/-- FNEG (R324). -/
def State.fneg (s : State) (d : RegNum) : State :=
  s.fpUnary .fneg [.fpInvalidOperation, .fpDenormalizedOperand] d
    fun x => fpWithSign s.cfg.fpFmt x (s.readFp d).toNat !(FpFmt.signBit s.cfg.fpFmt (s.readFp d).toNat)

/-- FRND (R325). -/
def State.frnd (s : State) (d : RegNum) : State :=
  s.fpUnary .frnd [.fpInvalidOperation, .fpDenormalizedOperand, .fpOverflow, .fpInexactResult] d
    fun x => s.fpRoundInt s.cfg.fpFmt x

/-- The integer an FP value converts to, and whether it is exact; none for an infinity or a NaN (R326). -/
def State.fpToInt (s : State) (x : FpVal) : Option (Int × Bool) :=
  match x with
  | .nan _ _ _ => none
  | .inf _ => none
  | .fin sign m e =>
    if m = 0 then some (0, true)
    else
      match s.rounding with
      | none =>
        let n := Config.freeInteger s.freeCount
        let qr := scaledDiv m 1 e
        some (n, qr.2.1 == 0 && n == if sign then -(qr.1 : Int) else qr.1)
      | some mode =>
        let r := roundInteger mode sign m e
        some (if sign then -(r.1 : Int) else r.1, r.2)

/-- FF2I raises FP INVALID OPERATION: a NaN, an infinity, or an integer outside the mode (R326). -/
def ff2iInvalid (u : Bool) (w : Nat) (n : Option (Int × Bool)) : Bool :=
  match n with
  | none => true
  | some (i, _) => !inRange u w i

/-- The exceptions of FF2I (R326). -/
def ff2iExceptions (u : Bool) (w : Nat) (denormal : Bool) (n : Option (Int × Bool)) : List Exc :=
  (if denormal then [.fpDenormalizedOperand] else []) ++
  match n with
  | none => [.fpInvalidOperation]
  | some (i, exact) =>
    if !inRange u w i then [.fpInvalidOperation, .fpOverflow]
    else if exact then [] else [.fpInexactResult]

/-- The flags of an FF2I that is skipped by an impotent FP INVALID OPERATION (R326). -/
def ff2iSkipFlags (es : List Exc) : EstFlags :=
  { invalidOperation := true
    overflow := es.contains .fpOverflow
    denormalized := es.contains .fpDenormalizedOperand }

/-- FF2I (R326). -/
def State.ff2i (s : State) (m : MMode) (u : Bool) (d : RegNum) : State :=
  s.checkAlu (s.cfg.implementsConvert .ff2i m) (s.fpsExist [d]) <|
    let x := s.fpValue d
    let n := s.fpToInt x
    let es := ff2iExceptions u m.width (FpVal.isDenormal s.cfg.fpFmt x) n
    s.complete (excMask es) fun t =>
      if ff2iInvalid u m.width n then t.setFlags (ff2iSkipFlags es)
      else
        let res := BitVec.ofInt m.width ((n.map Prod.fst).getD 0)
        (t.writeFpPart d res).setFlags (fpFlags {} { sign := res.msb, zero := res == 0 } es false)

/-- FI2F (R327). -/
def State.fi2f (s : State) (m : MMode) (u : Bool) (d : RegNum) : State :=
  s.checkAlu (s.cfg.implementsConvert .fi2f m) (s.fpsExist [d]) <|
    s.fpFinish d [.fpOverflow, .fpInexactResult] false {}
      (s.fpOfInt s.cfg.fpFmt (num u (s.readFpPart d m.width)))

/-- FEXT (R328). -/
def State.fext (s : State) (m : MMode) (d : RegNum) : State :=
  s.checkAlu (s.cfg.implementsFormat .fext m) (s.fpsExist [d]) <|
    let x := FpFmt.unpack m.fpFmt (s.readFpPart d m.width).toNat
    s.fpFinish d [.fpInvalidOperation, .fpDenormalizedOperand] (FpVal.isDenormal m.fpFmt x) {}
      (fpExtend m.fpFmt s.cfg.fpFmt x)

/-- FSQZ (R329). -/
def State.fsqz (s : State) (m : MMode) (d : RegNum) : State :=
  s.checkAlu (s.cfg.implementsFormat .fsqz m) (s.fpsExist [d]) <|
    let x := s.fpValue d
    let c := s.fpSqueeze s.cfg.fpFmt m.fpFmt x
    let es := s.fpExceptions arithExceptions (FpVal.isDenormal s.cfg.fpFmt x) c
    s.complete (excMask es) fun t =>
      (t.writeFpPart d (BitVec.ofNat m.width c.bits)).setFlags (fpFlags {} (fpResultFlags m.fpFmt c.bits) es c.inexact)

/-- FADD (R316). -/
def execFadd (d : RegNum) (r : RegNum) (s : State) : Host.Outcome State Fault Refusal :=
  .next (s.fadd d r)

/-- FSUB (R317). -/
def execFsub (d : RegNum) (r : RegNum) (s : State) : Host.Outcome State Fault Refusal :=
  .next (s.fsub d r)

/-- FMUL (R318). -/
def execFmul (d : RegNum) (r : RegNum) (s : State) : Host.Outcome State Fault Refusal :=
  .next (s.fmul d r)

/-- FDIV (R319). -/
def execFdiv (d : RegNum) (r : RegNum) (s : State) : Host.Outcome State Fault Refusal :=
  .next (s.fdiv d r)

/-- FREM (R320). -/
def execFrem (d : RegNum) (r : RegNum) (s : State) : Host.Outcome State Fault Refusal :=
  .next (s.frem d r)

/-- FCMP (R321). -/
def execFcmp (d : RegNum) (r : RegNum) (s : State) : Host.Outcome State Fault Refusal :=
  .next (s.fcmp d r)

/-- FSQR (R322). -/
def execFsqr (d : RegNum) (s : State) : Host.Outcome State Fault Refusal :=
  .next (s.fsqr d)

/-- FABS (R323). -/
def execFabs (d : RegNum) (s : State) : Host.Outcome State Fault Refusal :=
  .next (s.fabs d)

/-- FNEG (R324). -/
def execFneg (d : RegNum) (s : State) : Host.Outcome State Fault Refusal :=
  .next (s.fneg d)

/-- FRND (R325). -/
def execFrnd (d : RegNum) (s : State) : Host.Outcome State Fault Refusal :=
  .next (s.frnd d)

/-- FF2I (R326). -/
def execFf2i (m : MMode) (u : Bool) (d : RegNum) (s : State) : Host.Outcome State Fault Refusal :=
  .next (s.ff2i m u d)

/-- FI2F (R327). -/
def execFi2f (m : MMode) (u : Bool) (d : RegNum) (s : State) : Host.Outcome State Fault Refusal :=
  .next (s.fi2f m u d)

/-- FEXT (R328). -/
def execFext (m : MMode) (d : RegNum) (s : State) : Host.Outcome State Fault Refusal :=
  .next (s.fext m d)

/-- FSQZ (R329). -/
def execFsqz (m : MMode) (d : RegNum) (s : State) : Host.Outcome State Fault Refusal :=
  .next (s.fsqz m d)

end Sys2Proof.Machine
end

