-- ==== Sys2Proof/Machine/FusedMultiply.lean ====
section
/-! DEFINITION. Fused multiply-add and multiply-subtract: MAD, MSU, FMAD, FMSU (46_fused_multiply.md). -/
namespace Sys2Proof.Machine

/-- The frame of MAD and MSU: the checks, then the exact result of the three operands, which is double-width and raises
nothing (R350). -/
def State.fusedOp (s : State) (mn : Mnemonic) (m : MMode) (u : Bool) (d r : RegNum) (t : Third)
    (exact : Int → Int → Int → Int) : State :=
  s.checkAlu (s.cfg.implements mn m) (s.gprsExist (d :: r :: Third.regs t)) <|
    let a := s.readGpr d m.width
    let b := s.readGpr r m.width
    s.wideResult u d a b (exact (num u a) (num u b) (num u (s.third u m.width t)))

/-- MAD (R351). -/
def State.mad (s : State) (m : MMode) (u : Bool) (d r : RegNum) (t : Third) : State :=
  s.fusedOp .mad m u d r t fun a b c => a * b + c

/-- MSU (R352). -/
def State.msu (s : State) (m : MMode) (u : Bool) (d r : RegNum) (t : Third) : State :=
  s.fusedOp .msu m u d r t fun a b c => a * b - c

/-- The frame of FMAD and FMSU: three FP operands, the comparison of the first two (R353). -/
def State.fpTernary (s : State) (mn : Mnemonic) (d r r2 : RegNum) (op : FpVal → FpVal → FpVal → FpCalc) : State :=
  s.checkAlu (s.cfg.implementsFp mn) (s.fpsExist [d, r, r2]) <|
    let x := s.fpValue d
    let y := s.fpValue r
    let z := s.fpValue r2
    let f := s.cfg.fpFmt
    s.fpFinish d arithExceptions (FpVal.isDenormal f x || (FpVal.isDenormal f y || FpVal.isDenormal f z))
      (fpCompareFlags x y) (op x y z)

/-- FMAD (R353). -/
def State.fmad (s : State) (d r r2 : RegNum) : State :=
  s.fpTernary .fmad d r r2 fun x y z => FpFmt.nanInvalid s.cfg.fpFmt (s.fpFma s.cfg.fpFmt x y z)

/-- FMSU (R354). -/
def State.fmsu (s : State) (d r r2 : RegNum) : State :=
  s.fpTernary .fmsu d r r2 fun x y z =>
    FpFmt.nanInvalid s.cfg.fpFmt (s.fpFma s.cfg.fpFmt x y (FpVal.neg z))

/-- MAD, register form (R351). -/
def execMadR (m : MMode) (u : Bool) (d : RegNum) (r : RegNum) (r2 : RegNum) (s : State) : Host.Outcome State Fault Refusal :=
  .next (s.mad m u d r (.reg r2))

/-- MAD, immediate form (R351). -/
def execMadI (m : MMode) (u : Bool) (d : RegNum) (r : RegNum) (imm : BitVec 8) (s : State) : Host.Outcome State Fault Refusal :=
  .next (s.mad m u d r (.imm imm))

/-- MSU, register form (R352). -/
def execMsuR (m : MMode) (u : Bool) (d : RegNum) (r : RegNum) (r2 : RegNum) (s : State) : Host.Outcome State Fault Refusal :=
  .next (s.msu m u d r (.reg r2))

/-- MSU, immediate form (R352). -/
def execMsuI (m : MMode) (u : Bool) (d : RegNum) (r : RegNum) (imm : BitVec 8) (s : State) : Host.Outcome State Fault Refusal :=
  .next (s.msu m u d r (.imm imm))

/-- FMAD (R353). -/
def execFmad (d : RegNum) (r : RegNum) (r2 : RegNum) (s : State) : Host.Outcome State Fault Refusal :=
  .next (s.fmad d r r2)

/-- FMSU (R354). -/
def execFmsu (d : RegNum) (r : RegNum) (r2 : RegNum) (s : State) : Host.Outcome State Fault Refusal :=
  .next (s.fmsu d r r2)

end Sys2Proof.Machine
end

