-- ==== Sys2Proof/Machine/Logic.lean ====
section
/-! DEFINITION. Bitwise logic: AND, NAND, OR, XOR (43_logic.md).  The operands count as unsigned whatever U says; U
chooses the extension of the immediate only (R270). -/
namespace Sys2Proof.Machine

/-- AND (R271). -/
def State.andOp (s : State) (m : MMode) (d : RegNum) (src : Src) : State :=
  s.logicOp .and m d src fun a b => a &&& b

/-- NAND, the complement of the AND (R272, 90_conflicts.md C25). -/
def State.nandOp (s : State) (m : MMode) (d : RegNum) (src : Src) : State :=
  s.logicOp .nand m d src fun a b => ~~~(a &&& b)

/-- OR (R273). -/
def State.orOp (s : State) (m : MMode) (d : RegNum) (src : Src) : State :=
  s.logicOp .or m d src fun a b => a ||| b

/-- XOR (R274). -/
def State.xorOp (s : State) (m : MMode) (d : RegNum) (src : Src) : State :=
  s.logicOp .xor m d src fun a b => a ^^^ b

/-- AND, register form (R271). -/
def execAndR (m : MMode) (d : RegNum) (r : RegNum) (s : State) : Host.Outcome State Fault Refusal :=
  .next (s.andOp m d (.reg r))

/-- AND, immediate form (R271). -/
def execAndI (m : MMode) (u : Bool) (d : RegNum) (imm : BitVec 14) (s : State) : Host.Outcome State Fault Refusal :=
  .next (s.andOp m d (.imm u imm))

/-- NAND, register form (R272). -/
def execNandR (m : MMode) (d : RegNum) (r : RegNum) (s : State) : Host.Outcome State Fault Refusal :=
  .next (s.nandOp m d (.reg r))

/-- NAND, immediate form (R272). -/
def execNandI (m : MMode) (u : Bool) (d : RegNum) (imm : BitVec 14) (s : State) : Host.Outcome State Fault Refusal :=
  .next (s.nandOp m d (.imm u imm))

/-- OR, register form (R273). -/
def execOrR (m : MMode) (d : RegNum) (r : RegNum) (s : State) : Host.Outcome State Fault Refusal :=
  .next (s.orOp m d (.reg r))

/-- OR, immediate form (R273). -/
def execOrI (m : MMode) (u : Bool) (d : RegNum) (imm : BitVec 14) (s : State) : Host.Outcome State Fault Refusal :=
  .next (s.orOp m d (.imm u imm))

/-- XOR, register form (R274). -/
def execXorR (m : MMode) (d : RegNum) (r : RegNum) (s : State) : Host.Outcome State Fault Refusal :=
  .next (s.xorOp m d (.reg r))

/-- XOR, immediate form (R274). -/
def execXorI (m : MMode) (u : Bool) (d : RegNum) (imm : BitVec 14) (s : State) : Host.Outcome State Fault Refusal :=
  .next (s.xorOp m d (.imm u imm))

end Sys2Proof.Machine
end

