-- ==== Sys2Proof/Machine/ProgramTransfer.lean ====
section
/-! DEFINITION. Program transfer: JMP and the twelve branches (47_program_transfer.md). -/
namespace Sys2Proof.Machine

/-- The condition of a branch on the tested value (R372). -/
def Cond.taken {w : Nat} (c : Cond) (x : BitVec w) : Bool :=
  match c with
  | .z => x == 0
  | .nz => x != 0
  | .m => x.msb
  | .mz => x.msb || x == 0
  | .nm => !x.msb
  | .nmo => !x.msb || x == BitVec.allOnes w
  | .l => x.getLsbD 0
  | .lz => x.getLsbD 0 || x == 0
  | .nl => !x.getLsbD 0
  | .nlo => !x.getLsbD 0 || x == BitVec.allOnes w
  | .o => x == BitVec.allOnes w
  | .no => x != BitVec.allOnes w

/-- The target of a transfer: the value itself for A = 1, the value added to IC for A = 0 (R370). -/
def State.target (s : State) (a : Bool) (value : BitVec 64) : BitVec 64 :=
  s.icWrap (if a then value else s.ic + value)

/-- A transfer that is taken; P = 1 also writes the CALL RETURN POINTER with IC + 1 (R370). -/
def State.transfer (s : State) (a p : Bool) (value : BitVec 64) : State :=
  { s with ic := s.target a value, crp := if p then s.icWrap (s.ic + 1) else s.crp }

/-- JMP to the value of a register (R371). -/
def State.jumpReg (s : State) (a p : Bool) (loc : RegNum) : State :=
  s.checkOther (s.cfg.has .jmp) (s.gprsExist [loc]) (s.transfer a p (s.locationValue loc))

/-- JMP to OFFSET20, signed (R371). -/
def State.jumpOff (s : State) (a p : Bool) (off : BitVec 20) : State :=
  s.checkOther (s.cfg.has .jmp) true (s.transfer a p (off.signExtend 64))

/-- The end of a branch (R370, R372). -/
def State.branchTo (s : State) (c : Cond) (m : MMode) (a p : Bool) (arg : RegNum) (value : BitVec 64) : State :=
  if Cond.taken c (s.readGpr arg m.width) then s.transfer a p value else s.advance

/-- A branch to the value of a register (R372). -/
def State.branchReg (s : State) (mn : Mnemonic) (c : Cond) (m : MMode) (a p : Bool) (arg loc : RegNum) : State :=
  s.checkOther (s.cfg.implements mn m) (s.gprsExist [arg, loc]) (s.branchTo c m a p arg (s.locationValue loc))

/-- A branch to OFFSET14, signed (R372). -/
def State.branchOff (s : State) (mn : Mnemonic) (c : Cond) (m : MMode) (a p : Bool) (arg : RegNum) (off : BitVec 14) : State :=
  s.checkOther (s.cfg.implements mn m) (s.gprsExist [arg]) (s.branchTo c m a p arg (off.signExtend 64))

/-- JMP, register form (R371). -/
def execJmpR (a : Bool) (p : Bool) (loc : RegNum) (s : State) : Host.Outcome State Fault Refusal :=
  .next (s.jumpReg a p loc)

/-- JMP, offset form (R371). -/
def execJmpO (a : Bool) (p : Bool) (off : BitVec 20) (s : State) : Host.Outcome State Fault Refusal :=
  .next (s.jumpOff a p off)

/-- BZ, register form (R373). -/
def execBzR (m : MMode) (a : Bool) (p : Bool) (arg : RegNum) (loc : RegNum) (s : State) : Host.Outcome State Fault Refusal :=
  .next (s.branchReg .bz .z m a p arg loc)

/-- BZ, offset form (R373). -/
def execBzO (m : MMode) (a : Bool) (p : Bool) (arg : RegNum) (off : BitVec 14) (s : State) : Host.Outcome State Fault Refusal :=
  .next (s.branchOff .bz .z m a p arg off)

/-- BNZ, register form (R374). -/
def execBnzR (m : MMode) (a : Bool) (p : Bool) (arg : RegNum) (loc : RegNum) (s : State) : Host.Outcome State Fault Refusal :=
  .next (s.branchReg .bnz .nz m a p arg loc)

/-- BNZ, offset form (R374). -/
def execBnzO (m : MMode) (a : Bool) (p : Bool) (arg : RegNum) (off : BitVec 14) (s : State) : Host.Outcome State Fault Refusal :=
  .next (s.branchOff .bnz .nz m a p arg off)

/-- BM, register form (R375). -/
def execBmR (m : MMode) (a : Bool) (p : Bool) (arg : RegNum) (loc : RegNum) (s : State) : Host.Outcome State Fault Refusal :=
  .next (s.branchReg .bm .m m a p arg loc)

/-- BM, offset form (R375). -/
def execBmO (m : MMode) (a : Bool) (p : Bool) (arg : RegNum) (off : BitVec 14) (s : State) : Host.Outcome State Fault Refusal :=
  .next (s.branchOff .bm .m m a p arg off)

/-- BMZ, register form (R376). -/
def execBmzR (m : MMode) (a : Bool) (p : Bool) (arg : RegNum) (loc : RegNum) (s : State) : Host.Outcome State Fault Refusal :=
  .next (s.branchReg .bmz .mz m a p arg loc)

/-- BMZ, offset form (R376). -/
def execBmzO (m : MMode) (a : Bool) (p : Bool) (arg : RegNum) (off : BitVec 14) (s : State) : Host.Outcome State Fault Refusal :=
  .next (s.branchOff .bmz .mz m a p arg off)

/-- BNM, register form (R377). -/
def execBnmR (m : MMode) (a : Bool) (p : Bool) (arg : RegNum) (loc : RegNum) (s : State) : Host.Outcome State Fault Refusal :=
  .next (s.branchReg .bnm .nm m a p arg loc)

/-- BNM, offset form (R377). -/
def execBnmO (m : MMode) (a : Bool) (p : Bool) (arg : RegNum) (off : BitVec 14) (s : State) : Host.Outcome State Fault Refusal :=
  .next (s.branchOff .bnm .nm m a p arg off)

/-- BNMO, register form (R378). -/
def execBnmoR (m : MMode) (a : Bool) (p : Bool) (arg : RegNum) (loc : RegNum) (s : State) : Host.Outcome State Fault Refusal :=
  .next (s.branchReg .bnmo .nmo m a p arg loc)

/-- BNMO, offset form (R378). -/
def execBnmoO (m : MMode) (a : Bool) (p : Bool) (arg : RegNum) (off : BitVec 14) (s : State) : Host.Outcome State Fault Refusal :=
  .next (s.branchOff .bnmo .nmo m a p arg off)

/-- BL, register form (R379). -/
def execBlR (m : MMode) (a : Bool) (p : Bool) (arg : RegNum) (loc : RegNum) (s : State) : Host.Outcome State Fault Refusal :=
  .next (s.branchReg .bl .l m a p arg loc)

/-- BL, offset form (R379). -/
def execBlO (m : MMode) (a : Bool) (p : Bool) (arg : RegNum) (off : BitVec 14) (s : State) : Host.Outcome State Fault Refusal :=
  .next (s.branchOff .bl .l m a p arg off)

/-- BLZ, register form (R380). -/
def execBlzR (m : MMode) (a : Bool) (p : Bool) (arg : RegNum) (loc : RegNum) (s : State) : Host.Outcome State Fault Refusal :=
  .next (s.branchReg .blz .lz m a p arg loc)

/-- BLZ, offset form (R380). -/
def execBlzO (m : MMode) (a : Bool) (p : Bool) (arg : RegNum) (off : BitVec 14) (s : State) : Host.Outcome State Fault Refusal :=
  .next (s.branchOff .blz .lz m a p arg off)

/-- BNL, register form (R381). -/
def execBnlR (m : MMode) (a : Bool) (p : Bool) (arg : RegNum) (loc : RegNum) (s : State) : Host.Outcome State Fault Refusal :=
  .next (s.branchReg .bnl .nl m a p arg loc)

/-- BNL, offset form (R381). -/
def execBnlO (m : MMode) (a : Bool) (p : Bool) (arg : RegNum) (off : BitVec 14) (s : State) : Host.Outcome State Fault Refusal :=
  .next (s.branchOff .bnl .nl m a p arg off)

/-- BNLO, register form (R382). -/
def execBnloR (m : MMode) (a : Bool) (p : Bool) (arg : RegNum) (loc : RegNum) (s : State) : Host.Outcome State Fault Refusal :=
  .next (s.branchReg .bnlo .nlo m a p arg loc)

/-- BNLO, offset form (R382). -/
def execBnloO (m : MMode) (a : Bool) (p : Bool) (arg : RegNum) (off : BitVec 14) (s : State) : Host.Outcome State Fault Refusal :=
  .next (s.branchOff .bnlo .nlo m a p arg off)

/-- BO, register form (R383). -/
def execBoR (m : MMode) (a : Bool) (p : Bool) (arg : RegNum) (loc : RegNum) (s : State) : Host.Outcome State Fault Refusal :=
  .next (s.branchReg .bo .o m a p arg loc)

/-- BO, offset form (R383). -/
def execBoO (m : MMode) (a : Bool) (p : Bool) (arg : RegNum) (off : BitVec 14) (s : State) : Host.Outcome State Fault Refusal :=
  .next (s.branchOff .bo .o m a p arg off)

/-- BNO, register form (R384). -/
def execBnoR (m : MMode) (a : Bool) (p : Bool) (arg : RegNum) (loc : RegNum) (s : State) : Host.Outcome State Fault Refusal :=
  .next (s.branchReg .bno .no m a p arg loc)

/-- BNO, offset form (R384). -/
def execBnoO (m : MMode) (a : Bool) (p : Bool) (arg : RegNum) (off : BitVec 14) (s : State) : Host.Outcome State Fault Refusal :=
  .next (s.branchOff .bno .no m a p arg off)

end Sys2Proof.Machine
end

