-- ==== Sys2Proof/Machine/ReturnWait.lean ====
section
/-! DEFINITION. The returns RET, RETI, RETE, RETN and WAIT (48_return_wait.md). -/
namespace Sys2Proof.Machine

/-- RET (R401). -/
def State.retFrom (s : State) (p : Bool) : State :=
  s.checkOther (s.cfg.has .ret) true { s with ic := s.returnIc s.crp p }

/-- RETI (R402): executable in both modes. -/
def State.retiFrom (s : State) (p : Bool) : State := s.checkOther (s.cfg.has .reti) true (s.leave .interrupt p)

/-- RETE without argument (R403 (a)). -/
def State.reteFrom (s : State) (p : Bool) : State :=
  s.checkOther (s.cfg.has .rete) true (s.checkSystem (s.leave .exception p))

/-- RETE with a new SCR value (R403 (b), (c)); the bank is checked as for a MOV to SCR. -/
def State.reteWith (s : State) (p registers : Bool) (scr : Word) : State :=
  s.checkOther (s.cfg.has .rete) registers (s.checkSystem (s.checkBank scr (s.leaveExceptionWith p scr)))

/-- RETN without argument (R404 (a)). -/
def State.retnFrom (s : State) (p : Bool) : State :=
  s.checkOther (s.cfg.has .retn) true (s.checkSystem (s.leave .nmi p))

/-- RETN with a new SCR value (R404 (b), (c)). -/
def State.retnWith (s : State) (p registers : Bool) (scr : Word) : State :=
  s.checkOther (s.cfg.has .retn) registers (s.checkSystem (s.checkBank scr (s.leaveNmiWith p scr)))

/-- The pause of WAIT: indefinite for zero, else of that many clock cycles; IC keeps the index of the WAIT (R405). -/
def State.pause (s : State) (v : Nat) : State :=
  if v = 0 then { s with run := .waitingForever } else { s with run := .waitingTimed, waitTimer := v }

/-- WAIT for the value of a register, modulo the width of the wait timer (R405). -/
def State.waitReg (s : State) (loc : RegNum) : State :=
  s.checkOther (s.cfg.has .wait) (s.gprsExist [loc]) (s.pause (s.locationUnsigned loc % 2 ^ s.cfg.waitw))

/-- WAIT for OFFSET20 (R405). -/
def State.waitOff (s : State) (off : BitVec 20) : State := s.checkOther (s.cfg.has .wait) true (s.pause off.toNat)

/-- RET (R401). -/
def execRet (p : Bool) (s : State) : Host.Outcome State Fault Refusal :=
  .next (s.retFrom p)

/-- RETI (R402). -/
def execReti (p : Bool) (s : State) : Host.Outcome State Fault Refusal :=
  .next (s.retiFrom p)

/-- RETE, auto-restore (R403). -/
def execRete (p : Bool) (s : State) : Host.Outcome State Fault Refusal :=
  .next (s.reteFrom p)

/-- RETE, set according to register (R403). -/
def execReteR (p : Bool) (loc : RegNum) (s : State) : Host.Outcome State Fault Refusal :=
  .next (s.reteWith p (s.gprsExist [loc]) (BitVec.ofNat 32 (s.locationUnsigned loc)))

/-- RETE, set according to offset (R403). -/
def execReteO (p : Bool) (off : BitVec 20) (s : State) : Host.Outcome State Fault Refusal :=
  .next (s.reteWith p true (off.setWidth 32))

/-- RETN, auto-restore (R404). -/
def execRetn (p : Bool) (s : State) : Host.Outcome State Fault Refusal :=
  .next (s.retnFrom p)

/-- RETN, set according to register (R404). -/
def execRetnR (p : Bool) (loc : RegNum) (s : State) : Host.Outcome State Fault Refusal :=
  .next (s.retnWith p (s.gprsExist [loc]) (BitVec.ofNat 32 (s.locationUnsigned loc)))

/-- RETN, set according to offset (R404). -/
def execRetnO (p : Bool) (off : BitVec 20) (s : State) : Host.Outcome State Fault Refusal :=
  .next (s.retnWith p true (off.setWidth 32))

/-- WAIT, register form (R405). -/
def execWaitR (loc : RegNum) (s : State) : Host.Outcome State Fault Refusal :=
  .next (s.waitReg loc)

/-- WAIT, offset form (R405). -/
def execWaitO (off : BitVec 20) (s : State) : Host.Outcome State Fault Refusal :=
  .next (s.waitOff off)

end Sys2Proof.Machine
end

