-- ==== Sys2Proof/Machine/ShiftRotate.lean ====
section
/-! DEFINITION. Shifts and rotates: SL, SR, RL, RR (42_shift_rotate.md).  The count is the unsigned second operand
(R250); a shift by the mode width or more is not computed bit by bit but given its result (R251, R252). -/
namespace Sys2Proof.Machine

/-- `a` shifted left by `c`; zero for a count of the width or more (R251). -/
def shiftLeft {w : Nat} (a : BitVec w) (c : Nat) : BitVec w := if w ≤ c then 0 else a <<< c

/-- `a` shifted right by `c`: pulling zeros for U = 1, the MSB for U = 0 (R252). -/
def shiftRight {w : Nat} (u : Bool) (a : BitVec w) (c : Nat) : BitVec w :=
  if w ≤ c then (if !u && a.msb then BitVec.allOnes w else 0)
  else if u then a >>> c else a.sshiftRight c

/-- `a` rotated left by `c` modulo the width (R253). -/
def rotateLeft {w : Nat} (a : BitVec w) (c : Nat) : BitVec w := (a <<< (c % w)) ||| (a >>> (w - c % w))

/-- `a` rotated right by `c` modulo the width (R254). -/
def rotateRight {w : Nat} (a : BitVec w) (c : Nat) : BitVec w := (a >>> (c % w)) ||| (a <<< (w - c % w))

/-- SL (R251): the arithmetic shift raises OVERFLOW where the MSB changes; the result is the same either way. -/
def State.shiftLeftOp (s : State) (m : MMode) (u : Bool) (d : RegNum) (src : Src) : State :=
  s.integerOp .sl m d src fun a b =>
    let res := shiftLeft a b.toNat
    let ovf := !u && res.msb != a.msb
    s.complete (if ovf then excBit Exc.overflow.num else 0) fun t =>
      (t.writeGpr d res).setFlags { intFlags false a b res with overflow := ovf }

/-- SR (R252). -/
def State.shiftRightOp (s : State) (m : MMode) (u : Bool) (d : RegNum) (src : Src) : State :=
  s.logicOp .sr m d src fun a b => shiftRight u a b.toNat

/-- RL (R253). -/
def State.rotateLeftOp (s : State) (m : MMode) (d : RegNum) (src : Src) : State :=
  s.logicOp .rl m d src fun a b => rotateLeft a b.toNat

/-- RR (R254). -/
def State.rotateRightOp (s : State) (m : MMode) (d : RegNum) (src : Src) : State :=
  s.logicOp .rr m d src fun a b => rotateRight a b.toNat

/-- SL, register form (R251). -/
def execSlR (m : MMode) (u : Bool) (d : RegNum) (r : RegNum) (s : State) : Host.Outcome State Fault Refusal :=
  .next (s.shiftLeftOp m u d (.reg r))

/-- SL, immediate form (R251). -/
def execSlI (m : MMode) (u : Bool) (d : RegNum) (imm : BitVec 14) (s : State) : Host.Outcome State Fault Refusal :=
  .next (s.shiftLeftOp m u d (.imm u imm))

/-- SR, register form (R252). -/
def execSrR (m : MMode) (u : Bool) (d : RegNum) (r : RegNum) (s : State) : Host.Outcome State Fault Refusal :=
  .next (s.shiftRightOp m u d (.reg r))

/-- SR, immediate form (R252). -/
def execSrI (m : MMode) (u : Bool) (d : RegNum) (imm : BitVec 14) (s : State) : Host.Outcome State Fault Refusal :=
  .next (s.shiftRightOp m u d (.imm u imm))

/-- RL, register form (R253). -/
def execRlR (m : MMode) (d : RegNum) (r : RegNum) (s : State) : Host.Outcome State Fault Refusal :=
  .next (s.rotateLeftOp m d (.reg r))

/-- RL, immediate form (R253). -/
def execRlI (m : MMode) (d : RegNum) (imm : BitVec 14) (s : State) : Host.Outcome State Fault Refusal :=
  .next (s.rotateLeftOp m d (.imm false imm))

/-- RR, register form (R254). -/
def execRrR (m : MMode) (d : RegNum) (r : RegNum) (s : State) : Host.Outcome State Fault Refusal :=
  .next (s.rotateRightOp m d (.reg r))

/-- RR, immediate form (R254). -/
def execRrI (m : MMode) (d : RegNum) (imm : BitVec 14) (s : State) : Host.Outcome State Fault Refusal :=
  .next (s.rotateRightOp m d (.imm true imm))

end Sys2Proof.Machine
end

