-- ==== Sys2Proof/Machine/Dispatch.lean ====
section
/-! DEFINITION. One arm per constructor of Instr, each one call of that instruction's meaning. -/
namespace Sys2Proof.Machine

def exec (i : Instr) (s : State) : Host.Outcome State Fault Refusal :=
  match i with
  | .addR m u d r => Sys2Proof.Machine.execAddR m u d r s
  | .addI m u d imm => Sys2Proof.Machine.execAddI m u d imm s
  | .subR m u d r => Sys2Proof.Machine.execSubR m u d r s
  | .subI m u d imm => Sys2Proof.Machine.execSubI m u d imm s
  | .mulR m u d r => Sys2Proof.Machine.execMulR m u d r s
  | .mulI m u d imm => Sys2Proof.Machine.execMulI m u d imm s
  | .divR m u d r => Sys2Proof.Machine.execDivR m u d r s
  | .divI m u d imm => Sys2Proof.Machine.execDivI m u d imm s
  | .slR m u d r => Sys2Proof.Machine.execSlR m u d r s
  | .slI m u d imm => Sys2Proof.Machine.execSlI m u d imm s
  | .srR m u d r => Sys2Proof.Machine.execSrR m u d r s
  | .srI m u d imm => Sys2Proof.Machine.execSrI m u d imm s
  | .rlR m d r => Sys2Proof.Machine.execRlR m d r s
  | .rlI m d imm => Sys2Proof.Machine.execRlI m d imm s
  | .rrR m d r => Sys2Proof.Machine.execRrR m d r s
  | .rrI m d imm => Sys2Proof.Machine.execRrI m d imm s
  | .andR m d r => Sys2Proof.Machine.execAndR m d r s
  | .andI m u d imm => Sys2Proof.Machine.execAndI m u d imm s
  | .nandR m d r => Sys2Proof.Machine.execNandR m d r s
  | .nandI m u d imm => Sys2Proof.Machine.execNandI m u d imm s
  | .orR m d r => Sys2Proof.Machine.execOrR m d r s
  | .orI m u d imm => Sys2Proof.Machine.execOrI m u d imm s
  | .xorR m d r => Sys2Proof.Machine.execXorR m d r s
  | .xorI m u d imm => Sys2Proof.Machine.execXorI m u d imm s
  | .sbR m d r => Sys2Proof.Machine.execSbR m d r s
  | .sbI m d imm => Sys2Proof.Machine.execSbI m d imm s
  | .rbR m d r => Sys2Proof.Machine.execRbR m d r s
  | .rbI m d imm => Sys2Proof.Machine.execRbI m d imm s
  | .tbR m d r => Sys2Proof.Machine.execTbR m d r s
  | .tbI m d imm => Sys2Proof.Machine.execTbI m d imm s
  | .rvbR m d r => Sys2Proof.Machine.execRvbR m d r s
  | .rvbI m d imm => Sys2Proof.Machine.execRvbI m d imm s
  | .madR m u d r r2 => Sys2Proof.Machine.execMadR m u d r r2 s
  | .madI m u d r imm => Sys2Proof.Machine.execMadI m u d r imm s
  | .msuR m u d r r2 => Sys2Proof.Machine.execMsuR m u d r r2 s
  | .msuI m u d r imm => Sys2Proof.Machine.execMsuI m u d r imm s
  | .fadd d r => Sys2Proof.Machine.execFadd d r s
  | .fsub d r => Sys2Proof.Machine.execFsub d r s
  | .fmul d r => Sys2Proof.Machine.execFmul d r s
  | .fdiv d r => Sys2Proof.Machine.execFdiv d r s
  | .frem d r => Sys2Proof.Machine.execFrem d r s
  | .fcmp d r => Sys2Proof.Machine.execFcmp d r s
  | .fsqr d => Sys2Proof.Machine.execFsqr d s
  | .fabs d => Sys2Proof.Machine.execFabs d s
  | .fneg d => Sys2Proof.Machine.execFneg d s
  | .frnd d => Sys2Proof.Machine.execFrnd d s
  | .fmad d r r2 => Sys2Proof.Machine.execFmad d r r2 s
  | .fmsu d r r2 => Sys2Proof.Machine.execFmsu d r r2 s
  | .ff2i m u d => Sys2Proof.Machine.execFf2i m u d s
  | .fi2f m u d => Sys2Proof.Machine.execFi2f m u d s
  | .fext m d => Sys2Proof.Machine.execFext m d s
  | .fsqz m d => Sys2Proof.Machine.execFsqz m d s
  | .jmpR a p loc => Sys2Proof.Machine.execJmpR a p loc s
  | .jmpO a p off => Sys2Proof.Machine.execJmpO a p off s
  | .bzR m a p arg loc => Sys2Proof.Machine.execBzR m a p arg loc s
  | .bzO m a p arg off => Sys2Proof.Machine.execBzO m a p arg off s
  | .bnzR m a p arg loc => Sys2Proof.Machine.execBnzR m a p arg loc s
  | .bnzO m a p arg off => Sys2Proof.Machine.execBnzO m a p arg off s
  | .bmR m a p arg loc => Sys2Proof.Machine.execBmR m a p arg loc s
  | .bmO m a p arg off => Sys2Proof.Machine.execBmO m a p arg off s
  | .bmzR m a p arg loc => Sys2Proof.Machine.execBmzR m a p arg loc s
  | .bmzO m a p arg off => Sys2Proof.Machine.execBmzO m a p arg off s
  | .bnmR m a p arg loc => Sys2Proof.Machine.execBnmR m a p arg loc s
  | .bnmO m a p arg off => Sys2Proof.Machine.execBnmO m a p arg off s
  | .bnmoR m a p arg loc => Sys2Proof.Machine.execBnmoR m a p arg loc s
  | .bnmoO m a p arg off => Sys2Proof.Machine.execBnmoO m a p arg off s
  | .blR m a p arg loc => Sys2Proof.Machine.execBlR m a p arg loc s
  | .blO m a p arg off => Sys2Proof.Machine.execBlO m a p arg off s
  | .blzR m a p arg loc => Sys2Proof.Machine.execBlzR m a p arg loc s
  | .blzO m a p arg off => Sys2Proof.Machine.execBlzO m a p arg off s
  | .bnlR m a p arg loc => Sys2Proof.Machine.execBnlR m a p arg loc s
  | .bnlO m a p arg off => Sys2Proof.Machine.execBnlO m a p arg off s
  | .bnloR m a p arg loc => Sys2Proof.Machine.execBnloR m a p arg loc s
  | .bnloO m a p arg off => Sys2Proof.Machine.execBnloO m a p arg off s
  | .boR m a p arg loc => Sys2Proof.Machine.execBoR m a p arg loc s
  | .boO m a p arg off => Sys2Proof.Machine.execBoO m a p arg off s
  | .bnoR m a p arg loc => Sys2Proof.Machine.execBnoR m a p arg loc s
  | .bnoO m a p arg off => Sys2Proof.Machine.execBnoO m a p arg off s
  | .ret p => Sys2Proof.Machine.execRet p s
  | .reti p => Sys2Proof.Machine.execReti p s
  | .rete p => Sys2Proof.Machine.execRete p s
  | .reteR p loc => Sys2Proof.Machine.execReteR p loc s
  | .reteO p off => Sys2Proof.Machine.execReteO p off s
  | .retn p => Sys2Proof.Machine.execRetn p s
  | .retnR p loc => Sys2Proof.Machine.execRetnR p loc s
  | .retnO p off => Sys2Proof.Machine.execRetnO p off s
  | .waitR loc => Sys2Proof.Machine.execWaitR loc s
  | .waitO off => Sys2Proof.Machine.execWaitO off s
  | .movLoadDisp m d base off => Sys2Proof.Machine.execMovLoadDisp m d base off s
  | .movLoadLockedDisp m d base off => Sys2Proof.Machine.execMovLoadLockedDisp m d base off s
  | .movStoreDisp m d base off => Sys2Proof.Machine.execMovStoreDisp m d base off s
  | .movStoreCondDisp m d base off => Sys2Proof.Machine.execMovStoreCondDisp m d base off s
  | .movLoadReg m d idx => Sys2Proof.Machine.execMovLoadReg m d idx s
  | .movLoadRegPostInc m d idx => Sys2Proof.Machine.execMovLoadRegPostInc m d idx s
  | .movLoadRegPostDec m d idx => Sys2Proof.Machine.execMovLoadRegPostDec m d idx s
  | .movLoadRegPreInc m d idx => Sys2Proof.Machine.execMovLoadRegPreInc m d idx s
  | .movLoadRegPreDec m d idx => Sys2Proof.Machine.execMovLoadRegPreDec m d idx s
  | .movLoadIdx m d base idx => Sys2Proof.Machine.execMovLoadIdx m d base idx s
  | .movLoadIdxPostInc m d base idx => Sys2Proof.Machine.execMovLoadIdxPostInc m d base idx s
  | .movLoadIdxPostDec m d base idx => Sys2Proof.Machine.execMovLoadIdxPostDec m d base idx s
  | .movLoadIdxPreInc m d base idx => Sys2Proof.Machine.execMovLoadIdxPreInc m d base idx s
  | .movLoadIdxPreDec m d base idx => Sys2Proof.Machine.execMovLoadIdxPreDec m d base idx s
  | .movLoadLockedReg m d idx => Sys2Proof.Machine.execMovLoadLockedReg m d idx s
  | .movLoadLockedRegPostInc m d idx => Sys2Proof.Machine.execMovLoadLockedRegPostInc m d idx s
  | .movLoadLockedRegPostDec m d idx => Sys2Proof.Machine.execMovLoadLockedRegPostDec m d idx s
  | .movLoadLockedRegPreInc m d idx => Sys2Proof.Machine.execMovLoadLockedRegPreInc m d idx s
  | .movLoadLockedRegPreDec m d idx => Sys2Proof.Machine.execMovLoadLockedRegPreDec m d idx s
  | .movLoadLockedIdx m d base idx => Sys2Proof.Machine.execMovLoadLockedIdx m d base idx s
  | .movLoadLockedIdxPostInc m d base idx => Sys2Proof.Machine.execMovLoadLockedIdxPostInc m d base idx s
  | .movLoadLockedIdxPostDec m d base idx => Sys2Proof.Machine.execMovLoadLockedIdxPostDec m d base idx s
  | .movLoadLockedIdxPreInc m d base idx => Sys2Proof.Machine.execMovLoadLockedIdxPreInc m d base idx s
  | .movLoadLockedIdxPreDec m d base idx => Sys2Proof.Machine.execMovLoadLockedIdxPreDec m d base idx s
  | .movStoreReg m d idx => Sys2Proof.Machine.execMovStoreReg m d idx s
  | .movStoreRegPostInc m d idx => Sys2Proof.Machine.execMovStoreRegPostInc m d idx s
  | .movStoreRegPostDec m d idx => Sys2Proof.Machine.execMovStoreRegPostDec m d idx s
  | .movStoreRegPreInc m d idx => Sys2Proof.Machine.execMovStoreRegPreInc m d idx s
  | .movStoreRegPreDec m d idx => Sys2Proof.Machine.execMovStoreRegPreDec m d idx s
  | .movStoreIdx m d base idx => Sys2Proof.Machine.execMovStoreIdx m d base idx s
  | .movStoreIdxPostInc m d base idx => Sys2Proof.Machine.execMovStoreIdxPostInc m d base idx s
  | .movStoreIdxPostDec m d base idx => Sys2Proof.Machine.execMovStoreIdxPostDec m d base idx s
  | .movStoreIdxPreInc m d base idx => Sys2Proof.Machine.execMovStoreIdxPreInc m d base idx s
  | .movStoreIdxPreDec m d base idx => Sys2Proof.Machine.execMovStoreIdxPreDec m d base idx s
  | .movStoreCondReg m d idx => Sys2Proof.Machine.execMovStoreCondReg m d idx s
  | .movStoreCondRegPostInc m d idx => Sys2Proof.Machine.execMovStoreCondRegPostInc m d idx s
  | .movStoreCondRegPostDec m d idx => Sys2Proof.Machine.execMovStoreCondRegPostDec m d idx s
  | .movStoreCondRegPreInc m d idx => Sys2Proof.Machine.execMovStoreCondRegPreInc m d idx s
  | .movStoreCondRegPreDec m d idx => Sys2Proof.Machine.execMovStoreCondRegPreDec m d idx s
  | .movStoreCondIdx m d base idx => Sys2Proof.Machine.execMovStoreCondIdx m d base idx s
  | .movStoreCondIdxPostInc m d base idx => Sys2Proof.Machine.execMovStoreCondIdxPostInc m d base idx s
  | .movStoreCondIdxPostDec m d base idx => Sys2Proof.Machine.execMovStoreCondIdxPostDec m d base idx s
  | .movStoreCondIdxPreInc m d base idx => Sys2Proof.Machine.execMovStoreCondIdxPreInc m d base idx s
  | .movStoreCondIdxPreDec m d base idx => Sys2Proof.Machine.execMovStoreCondIdxPreDec m d base idx s
  | .movRegReg m d r => Sys2Proof.Machine.execMovRegReg m d r s
  | .movRegSpc m d r => Sys2Proof.Machine.execMovRegSpc m d r s
  | .movSpcReg m d r => Sys2Proof.Machine.execMovSpcReg m d r s
  | .movRegDsp m d r => Sys2Proof.Machine.execMovRegDsp m d r s
  | .movDspReg m d r => Sys2Proof.Machine.execMovDspReg m d r s
  | .movRegFpr m d r => Sys2Proof.Machine.execMovRegFpr m d r s
  | .movFprReg m d r => Sys2Proof.Machine.execMovFprReg m d r s
  | .movImm m u d imm => Sys2Proof.Machine.execMovImm m u d imm s

end Sys2Proof.Machine
end

