-- ==== Sys2Proof/Machine/Boundary.lean ====
section
/-! DEFINITION. The instruction boundary: one step of a core that runs, waits or is stuck (60_exceptions.md R490,
48_return_wait.md R406), with the environment's actions at its start. -/
namespace Sys2Proof.Machine

/-- A write of another agent to one byte of memory; it clears a reservation of that byte (20_memory.md R116). -/
def State.externalWrite (s : State) (c : Host.Cell) : State :=
  let a := c.1 % 2 ^ s.cfg.paw
  { s with
    mem := memSet s.mem a c.2
    resv := match s.resv with
      | some r => if r.phys.contains a then none else some r
      | none => none }

/-- What the environment does to memory and to the bus in this step; the counter of the free values advances. -/
def State.sense (s : State) (i : Input) : State :=
  { i.writes.foldl State.externalWrite s with
    maySucceed := i.maySucceed
    fetchFault := i.fetchFault
    dataFault := i.dataFault
    freeCount := s.freeCount + 1 }

/-- The requests on the NMI and interrupt lines are latched (10_state.md R34). -/
def State.latch (s : State) (i : Input) : State :=
  { s with nmiPending := s.nmiPending || i.nmi, irqPending := s.irqPending || i.irq }

/-- An exception the environment can raise on this implementation: DSP EXCEPTION 0 to 3 where there is a DSP unit, and
the implementation-specific ones it has (60_exceptions.md R473, R476; log 23). -/
def Config.raisable (c : Config) (n : Nat) : Bool :=
  (c.dsp.isSome && decide (16 ≤ n ∧ n ≤ 19)) || c.hwExceptions.contains n

/-- The hardware-raised exceptions of this step (R454). -/
def State.raiseEvents (s : State) (ns : List Nat) : State :=
  (ns.filter (Config.raisable s.cfg)).foldl State.raiseHw s

/-- The DEBUG MODE EXCEPTION after a completed instruction (R458). -/
def State.debugAfter (s : State) (dbg : Bool) : State :=
  if dbg && !s.abandoned && s.run == .running then s.raiseHw Exc.debugMode.num else s

/-- The instruction of a fetched word is executed; a word that decodes to none is a transfer of an implementation-specific
file or raises INVALID INSTRUCTION (R65, R459, R490). -/
def State.execute (s : State) (w : Word) : Host.Outcome State Fault Refusal :=
  let t := { s with ir := w, abandoned := false }
  match decode w with
  | .error _ => .next (((t.extraTransfer w).getD (t.raiseSkip .invalidInstruction)).debugAfter s.debugMode)
  | .ok i =>
    match exec i t with
    | .next t' => .next (t'.debugAfter s.debugMode)
    | .fault r => .fault r
    | .refused r => .refused r

/-- One step of a running core: an NMI, an exception, an interrupt, or one instruction, in this order (R490). -/
def State.runCycle (s : State) : Host.Outcome State Fault Refusal :=
  if s.nmiPending then .next (s.enter .nmi)
  else if s.potent s.exc then .next (s.enter .exception)
  else if s.irqPending && s.irqEnabled then .next (s.enter .interrupt)
  else
    match s.fetch with
    | none => .next s.iBusError
    | some w => s.execute w

/-- One clock cycle of a waiting core (48_return_wait.md R406). -/
def State.waitCycle (s : State) : State :=
  if s.nmiPending then (s.wake.enter .nmi).debugAfter s.debugMode
  else if s.irqPending && s.irqEnabled then (s.wake.enter .interrupt).debugAfter s.debugMode
  else if s.run = .waitingTimed then
    if s.waitTimer - 1 = 0 then s.wake.debugAfter s.debugMode else { s with waitTimer := s.waitTimer - 1 }
  else s

/-- One step under the environment's action `i`: reset comes first; a stuck core does nothing else, and its registers and
memory stay undetermined (R490, R474; log 39). -/
def State.cycle (s : State) (i : Input) : Host.Outcome State Fault Refusal :=
  let s := s.sense i
  if i.reset then .next s.systemReset
  else
    match s.run with
    | .stuck => .next s.undetermined
    | .waitingTimed | .waitingForever => .next (s.latch i).waitCycle
    | .running => ((s.latch i).raiseEvents i.raise).runCycle

/-- One step: the environment's next action is read, a quiet one where there is none left (log 7). -/
def State.boundary (s : State) : Host.Outcome State Fault Refusal :=
  if s.cfg.valid then
    match s.inputs with
    | [] => if s.run = .stuck then .fault .stuck else s.cycle {}
    | i :: rest => { s with inputs := rest }.cycle i
  else .refused .configurationOutsideSpec

end Sys2Proof.Machine
end

