-- ==== Sys2Proof/Machine/Step.lean ====
section
/-! DEFINITION. The step of the machine, and the state with an instruction placed where the step fetches it. -/
namespace Sys2Proof.Machine

/-- One step: one instruction, one entry to a handler, or one clock cycle of a waiting core (60_exceptions.md R490,
48_return_wait.md R408). -/
def step (s : State) : Host.Outcome State Fault Refusal := s.boundary

/-- The state with the instruction word `w` in memory at the byte address `4 * IC`, in the byte order of memory; every bit
above `nbits` is zero (20_memory.md R108; log 15). -/
def State.withFetchWord (s : State) (nbits w : Nat) : State :=
  match s.physRange .fetch (4 * s.ic.toNat) 4 with
  | some ps => { s with mem := memSetAll s.mem ps (bytesOfValue s.cfg.endian 4 (w % 2 ^ nbits)) }
  | none => s

end Sys2Proof.Machine
end

