-- ==== Sys2Proof/Safety.lean ====
section
/-! DEFINITION. What counts as a safe state, and the terms the statements about instructions use: the invariant of the
machine, the forms of an instruction, the words that are no instruction, the state in which the step executes. -/
namespace Sys2Proof.Machine

/-- A register file holds so many registers, none of them wider than `width` bits (10_state.md R23, R24). -/
def FileOk (file : List Reg) (count width : Nat) : Prop :=
  file.length = count ∧ ∀ r ∈ file, r.toNat < 2 ^ width

/-- The register files have the sizes of the configuration (R24, R29, R63, R64, R65). -/
def State.FilesOk (s : State) : Prop :=
  FileOk s.gpr (s.cfg.nbanks * s.cfg.ngpr) s.cfg.gprwPhys ∧
  (match s.cfg.dsp with
    | some f => FileOk s.dsp f.count f.width.width
    | none => s.dsp = []) ∧
  (match s.cfg.fpr with
    | some f => FileOk s.fpr f.count f.width
    | none => s.fpr = []) ∧
  s.extra.length = s.cfg.extraFiles.length ∧
  ∀ k f, s.cfg.extraFiles[k]? = some f → FileOk (s.extra.getD k []) f.count f.width.width

/-- THE INVARIANT of the machine: the configuration is one the spec allows, the register files have its sizes, memory is
in canonical form inside the physical address space, IC has ICW bits, the GPR bank of a core that is not stuck exists, the
NMI is not masked, the wait timer fits its width and counts exactly while the core waits for it, a reservation lies inside
the address space. -/
structure State.Inv (s : State) : Prop where
  configuration : s.cfg.valid = true
  files : s.FilesOk
  memoryForm : Memory.wf s.mem = true
  memoryBelow : Memory.below (2 ^ s.cfg.paw) s.mem = true
  counter : s.ic.toNat < 2 ^ s.cfg.icw
  bank : s.run ≠ .stuck → (s.scr.extractLsb' 4 4).toNat < s.cfg.nbanks
  nmiUnmasked : s.exm.getLsbD 0 = false
  timerWidth : s.waitTimer < 2 ^ s.cfg.waitw
  timerCounts : s.run = .waitingTimed ↔ s.waitTimer ≠ 0
  reservation : ∀ r, s.resv = some r → r.addr < 2 ^ s.cfg.paw ∧ r.phys.length = r.bytes

/-! ## The forms of an instruction -/

/-- `i` is the register form of a two-operand instruction with an existing SOURCE, or its immediate form, and `b` is its
second operand in `w` bits (41_integer_arith.md R230). -/
def State.SecondOperand (s : State) (w : Nat) (u : Bool) (regForm : RegNum → Instr) (immForm : BitVec 14 → Instr)
    (i : Instr) (b : BitVec w) : Prop :=
  (∃ r, i = regForm r ∧ r.toNat < s.cfg.ngpr ∧ b = s.readGpr r w) ∨ (∃ x, i = immForm x ∧ b = extend u w x)

/-- The same for the third operand of MAD and MSU (46_fused_multiply.md R350). -/
def State.ThirdOperand (s : State) (w : Nat) (u : Bool) (regForm : RegNum → Instr) (immForm : BitVec 8 → Instr)
    (i : Instr) (c : BitVec w) : Prop :=
  (∃ r, i = regForm r ∧ r.toNat < s.cfg.ngpr ∧ c = s.readGpr r w) ∨ (∃ x, i = immForm x ∧ c = extend u w x)

/-- The arithmetic/logic instructions, bits 31:30 = 00 (30_encoding.md R140). -/
def Instr.isAlu (i : Instr) : Bool := (encodeFields i).group == 0

/-- The control instructions, bits 31:30 = 01 (R140). -/
def Instr.isControl (i : Instr) : Bool := (encodeFields i).group == 1

/-- The data transfer instructions, bit 31 = 1 (R140). -/
def Instr.isTransfer (i : Instr) : Bool := (encodeFields i).group.getLsbD 1

/-- WAIT (48_return_wait.md R405). -/
def Instr.isWait (i : Instr) : Bool :=
  match i with
  | .waitR _ | .waitO _ => true
  | _ => false

/-- The condition of a branch is met by the value of ARGUMENT (the table of 47_program_transfer.md R372). -/
def Cond.Met {w : Nat} (c : Cond) (x : BitVec w) : Prop :=
  let msb := x.getLsbD (w - 1) = true
  let lsb := x.getLsbD 0 = true
  let ones := x.toNat = 2 ^ w - 1
  match c with
  | .z => x.toNat = 0
  | .nz => x.toNat ≠ 0
  | .m => msb
  | .mz => msb ∨ x.toNat = 0
  | .nm => ¬msb
  | .nmo => ¬msb ∨ ones
  | .l => lsb
  | .lz => lsb ∨ x.toNat = 0
  | .nl => ¬lsb
  | .nlo => ¬lsb ∨ ones
  | .o => ones
  | .no => ¬ones

/-- The mnemonic of a branch (47_program_transfer.md R372). -/
def Cond.mnemonic (c : Cond) : Mnemonic :=
  match c with
  | .z => .bz | .nz => .bnz | .m => .bm | .mz => .bmz | .nm => .bnm | .nmo => .bnmo
  | .l => .bl | .lz => .blz | .nl => .bnl | .nlo => .bnlo | .o => .bo | .no => .bno

/-- The mnemonic of an instruction, from the fields of its word (30_encoding.md R143, R151, R155). -/
def Instr.mnemonic (i : Instr) : Mnemonic :=
  let f := encodeFields i
  let aux := f.aux.toNat
  if f.group.getLsbD 1 then .mov
  else if f.group = 1 then
    [.jmp, .bz, .bnz, .bm, .bmz, .bnm, .bnmo, .bl, .blz, .bnl, .bnlo, .bo, .bno,
      [.ret, .reti, .rete, .retn].getD f.mmode.toNat .mov, .wait].getD aux .mov
  else if f.b24 then
    [.fadd, .fsub, .fmul, .fdiv, .frem, .fcmp, .fsqr, .fabs, .fneg, .frnd, .ff2i, .fi2f, .fext, .fsqz, .fmad,
      .fmsu].getD aux .mov
  else
    [.add, .sub, .mul, .div, .sl, .sr, if f.b25 then .rr else .rl, .and, .nand, .or, .xor, if f.b25 then .rb else .sb,
      if f.b25 then .rvb else .tb, .mov, .mad, .msu].getD aux .mov

/-- The implementation provides the instruction (30_encoding.md R159): transfers up to MAXXFER, integer and branch
instructions in the modes it implements, FP instructions where there is an FPU that has them, FF2I, FI2F, FEXT and FSQZ in
the modes it implements, FEXT and FSQZ where the widest format holds the mode's (log 40). -/
def Instr.provided (c : Config) (i : Instr) : Bool :=
  let f := encodeFields i
  let m := MMode.ofCode f.mmode
  let aux := f.aux.toNat
  let mn := Instr.mnemonic i
  if f.group.getLsbD 1 then decide (m.width ≤ c.maxXfer.width)
  else if f.group = 1 then if 1 ≤ aux ∧ aux ≤ 12 then c.implements mn m else c.has mn
  else if f.b24 then
    c.fpu != .none && c.has mn &&
      (if aux = 10 ∨ aux = 11 then c.implements mn m
        else if aux = 12 ∨ aux = 13 then c.implements mn m && (m.isFpWidth && m.fpFmt.fits c.fpFmt) else true)
  else c.implements mn m

/-- Every register field the form of the instruction uses names a register of its file (R158). -/
def Instr.registersExist (c : Config) (i : Instr) : Bool :=
  let f := encodeFields i
  let aux := f.aux.toNat
  let gpr := fun x : RegNum => decide (x.toNat < c.ngpr)
  let spc := fun x : RegNum => decide (x.toNat < 27)
  let dsp := fun x : RegNum => (c.dsp.map fun k => decide (x.toNat < k.count)).getD false
  let fpr := fun x : RegNum => (c.fpr.map fun k => decide (x.toNat < k.count)).getD false
  let fp := fun x : RegNum => if c.fpr.isSome then fpr x else gpr x
  if f.group.getLsbD 1 then
    if f.b24 then
      if f.b26 then gpr f.dest
      else if aux = 0 then gpr f.dest && gpr f.lo
      else if aux = 1 then gpr f.dest && spc f.lo
      else if aux = 2 then spc f.dest && gpr f.lo
      else if aux = 3 then gpr f.dest && dsp f.lo
      else if aux = 4 then dsp f.dest && gpr f.lo
      else if aux = 14 then gpr f.dest && fpr f.lo
      else fpr f.dest && gpr f.lo
    else gpr f.dest && (if f.b26 then gpr f.mid else gpr f.lo && (decide (aux < 8) || gpr f.mid))
  else if f.group = 1 then
    (decide (aux = 0 ∨ 13 ≤ aux) || gpr f.dest) && (f.b26 || (decide (aux = 13) && !f.b25) || gpr f.mid)
  else if f.b24 then
    fp f.dest && (decide (6 ≤ aux ∧ aux ≤ 13) || fp f.mid) && (decide (aux < 14) || fp f.lo)
  else if aux < 14 then gpr f.dest && (f.b26 || gpr f.mid)
  else gpr f.dest && gpr f.mid && (f.b26 || gpr f.lo)

/-- The words R156 lists as invalid, item by item. -/
def InvalidWord (w : Word) : Prop :=
  let d := w.getLsbD 31
  let l := w.getLsbD 30
  let mmode := w.extractLsb' 27 3
  let b26 := w.getLsbD 26
  let b25 := w.getLsbD 25
  let b24 := w.getLsbD 24
  let aux := (w.extractLsb' 14 4).toNat
  -- 1 to 4: data transfer
  (d = true ∧ b24 = false ∧ b26 = false ∧ aux ∈ [3, 4, 7, 11, 12, 15]) ∨
  (d = true ∧ b24 = true ∧ l = false) ∨
  (d = true ∧ b24 = true ∧ b26 = false ∧ b25 = true) ∨
  (d = true ∧ b24 = true ∧ b26 = false ∧ 5 ≤ aux ∧ aux ≤ 13) ∨
  -- 5 and 6: arithmetic/logic
  (d = false ∧ l = false ∧ b24 = false ∧ aux = 13) ∨
  (d = false ∧ l = false ∧ b24 = true ∧
    (b26 = true ∨
     (aux ∈ [0, 1, 2, 3, 4, 5, 6, 7, 8, 9, 14, 15] ∧ (mmode ≠ 0 ∨ b25 = true)) ∨
     (aux ∈ [12, 13] ∧ (b25 = true ∨ mmode = 0 ∨ mmode = 6 ∨ mmode = 7)))) ∨
  -- 7 to 10: control
  (d = false ∧ l = true ∧ aux = 15) ∨
  (d = false ∧ l = true ∧ aux = 0 ∧ mmode ≠ 0) ∨
  (d = false ∧ l = true ∧ aux = 13 ∧
    (4 ≤ mmode.toNat ∨ (b25 = false ∧ b26 = true) ∨ (mmode.toNat ≤ 1 ∧ b25 = true))) ∨
  (d = false ∧ l = true ∧ aux = 14 ∧ (mmode ≠ 0 ∨ b25 = true ∨ b24 = true))

/-! ## The state in which a step executes its instruction -/

/-- The state at the start of a step in which the environment does nothing (log 7 to 10). -/
def State.quiet (s : State) : State :=
  { s with maySucceed := true, fetchFault := false, dataFault := false, freeCount := s.freeCount + 1 }

/-- The state after the environment's action at the start of a step but for its hardware-raised exceptions: the writes of
other agents, the bus flags, the requests latched (10_state.md R34, 60_exceptions.md R457, R480; log 7). -/
def State.acted (s : State) (i : Input) (rest : List Input) : State :=
  { i.writes.foldl State.externalWrite s with
    inputs := rest, maySucceed := i.maySucceed, fetchFault := i.fetchFault, dataFault := i.dataFault,
    freeCount := s.freeCount + 1, nmiPending := s.nmiPending || i.nmi, irqPending := s.irqPending || i.irq }

/-- The hardware-raised exceptions of a step, noted between two instructions (R454): their EXC bits, and the next word in
EXI; those the implementation has no source of are no exceptions (R473, R476; log 23). -/
def State.notedBetween (s : State) (ns : List Nat) : State :=
  let accepted := ns.filter fun n => (s.cfg.dsp.isSome && decide (16 ≤ n ∧ n ≤ 19)) || decide (n ∈ s.cfg.hwExceptions)
  if accepted = [] then s
  else { s with exc := accepted.foldl (fun e n => e ||| 1#64 <<< n) s.exc, exi := s.fetch.getD s.exi }

/-- The state an instruction with the word `w` executes in: the word is in `ir` and nothing is abandoned yet (log 5, 6). -/
def State.executing (s : State) (w : Word) : State := { s with ir := w, abandoned := false }

/-- A running core with nothing pending and no action of the environment: its next step fetches an instruction (R490). -/
structure State.ReadyToFetch (s : State) : Prop where
  configuration : s.cfg.valid = true
  environment : s.inputs = []
  running : s.run = .running
  noNmi : s.nmiPending = false
  noException : s.potent s.exc = false
  noInterrupt : (s.irqPending && s.irqEnabled) = false

/-! ## The terms of the statements about instructions -/

/-- The number an operand denotes: unsigned for U = 1, two's complement for U = 0 (00_scope.md R12). -/
def valueOf {w : Nat} (u : Bool) (x : BitVec w) : Int := if u then (x.toNat : Int) else x.toInt

/-- `Flags` of 10_state.md R44, from the numbers the rule compares: `cmp_signed`, the operands and the result. -/
def ruleFlags {w k : Nat} (cmpSigned : Bool) (a b : BitVec w) (res : BitVec k) : EstFlags :=
  let va := valueOf (!cmpSigned) a
  let vb := valueOf (!cmpSigned) b
  { equal := decide (va = vb)
    greaterThan := decide (vb < va)
    lessThan := decide (va < vb)
    sign := res.getLsbD (k - 1)
    zero := decide (res.toNat = 0) }

/-- The result in DESTINATION, the flags in EST, IC + 1 (41_integer_arith.md R230). -/
def State.writtenBack {k : Nat} (s : State) (d : RegNum) (res : BitVec k) (f : EstFlags) : State :=
  ((s.writeGpr d res).setFlags f).advance

/-- Exception `n` is noted: EXC[n] and EXI (60_exceptions.md R452). -/
def State.noted (s : State) (n : Nat) : State := { s with exc := s.exc ||| 1#64 <<< n, exi := s.ir }

/-- Exception `n` of a skipped or an abandoned instruction: nothing but EXC, EXI and IC changes (R452). -/
def State.skipped (s : State) (n : Nat) : State :=
  { s with
    exc := s.exc ||| 1#64 <<< n
    exi := s.ir
    ic := s.icWrap (s.ic + 1)
    abandoned := s.abandoned || s.potent (1#64 <<< n) }

/-- The index register after a transfer: updated where the form updates one (40_data_transfer.md R205). -/
def State.indexed (s : State) (m : MMode) (a : Addr) : State :=
  match s.indexWrite m a with
  | some (r, x) => s.writeGpr r x
  | none => s

/-- The transfer is provided and its registers exist (40_data_transfer.md R217). -/
def State.TransferReady (s : State) (m : MMode) (d : RegNum) (a : Addr) : Prop :=
  m.width ≤ s.cfg.maxXfer.width ∧ d.toNat < s.cfg.ngpr ∧ ∀ r ∈ Addr.regs a, r.toNat < s.cfg.ngpr

/-- How many registers from DESTINATION on an integer arithmetic/logic instruction can write: those of its result, twice
as many for the double-width ones and for the quotient with the remainder (41_integer_arith.md R234, R235,
46_fused_multiply.md R350). -/
def Instr.resultRegisters (c : Config) (i : Instr) : Nat :=
  let f := encodeFields i
  let w := (MMode.ofCode f.mmode).width
  if f.aux = 2 ∨ f.aux = 14 ∨ f.aux = 15 then pieces (2 * w) c.gprw.width
  else if f.aux = 3 then 2 * pieces w c.gprw.width
  else pieces w c.gprw.width

/-- The set S of 45_floating_point.md R314: what an operation delivers, among the exceptions the instruction lists; an
overflow adds FP INEXACT RESULT where FP OVERFLOW is impotent, an inexact tiny result where FP UNDERFLOW is. -/
def State.fpRaised (s : State) (listed : List Exc) (denormal : Bool) (c : FpCalc) : List Exc :=
  let inexact :=
    if c.overflow then !s.potent 0x2000 else if c.tiny then c.inexact && !s.potent 0x4000 else c.inexact
  ([(Exc.fpDenormalizedOperand, denormal), (.fpInvalidOperation, c.invalid), (.fpDivisionByZero, c.divZero),
    (.fpOverflow, c.overflow), (.fpUnderflow, c.tiny && !c.overflow), (.fpInexactResult, inexact)].filter
    fun e => e.2 && listed.contains e.1).map Prod.fst

/-- The state with the exceptions of a list noted, unchanged where there is none (R314). -/
def State.notedAll (s : State) (es : List Exc) : State :=
  if es = [] then s else { s with exc := s.exc ||| excMask es, exi := s.ir }

/-- The end of an FP instruction that raised the exceptions of a list: where one is potent nothing but EXC, EXI and IC is
written and the instruction is abandoned, else the result is (R314, 60_exceptions.md R452). -/
def State.fpOutcome (s : State) (es : List Exc) (result : State) : State :=
  if s.potent (excMask es) then
    { s with exc := s.exc ||| excMask es, exi := s.ir, ic := s.icWrap (s.ic + 1), abandoned := true }
  else result

/-- `v` is the datum of register `i` of a file of `n` registers from `base` on that hold `c` bits of it: bit `b` is bit
`b mod c` of the register `b / c` places on, circularly (10_state.md R25). -/
def FileRead (file : List Reg) (base n c i : Nat) {w : Nat} (v : BitVec w) : Prop :=
  ∀ b, b < w → v.getLsbD b = (file.getD (base + (i + b / c) % n) 0).getLsbD (b % c)

/-- `new` is the file after `v` is written to register `i`: the `j`-th register of the datum receives its `j`-th part, the
last part that falls on a bit of a register winning; other bits and registers keep their value (R26). -/
def FileWritten (old new : List Reg) (base n c i : Nat) {w : Nat} (v : BitVec w) : Prop :=
  let puts := fun j x b => j < (w + c - 1) / c ∧ base + (i + j) % n = x ∧ b < min c (w - j * c)
  new.length = old.length ∧
  (∀ j x b, puts j x b → (∀ k, j < k → ¬puts k x b) → (new.getD x 0).getLsbD b = v.getLsbD (j * c + b)) ∧
  ∀ x b, (∀ j, ¬puts j x b) → (new.getD x 0).getLsbD b = (old.getD x 0).getLsbD b

/-- The rational number a finite FP value stands for, zero for the others (45_floating_point.md R312). -/
def FpVal.rat (x : FpVal) : Rat :=
  match x with
  | .fin sign m e => (if sign then -1 else 1) * (m : Rat) * (2 : Rat) ^ e
  | _ => 0

/-- The value is finite. -/
def FpVal.isFinite (x : FpVal) : Bool :=
  match x with
  | .fin _ _ _ => true
  | _ => false

/-- The value of a pattern without its sign, as if the exponent range had no upper end (R312). -/
def FpFmt.magnitude (f : FpFmt) (bits : Nat) : Rat :=
  let e := bits / 2 ^ f.fracBits
  let frac := bits % 2 ^ f.fracBits
  if e = 0 then (frac : Rat) * (2 : Rat) ^ (FpFmt.minQuantum f)
  else ((2 ^ f.fracBits + frac : Nat) : Rat) * (2 : Rat) ^ ((e : Int) - 1 + FpFmt.minQuantum f)

/-- What a rounding mode makes of a positive value `v` strictly between the neighbours `lo` and `hi`, `odd` saying
whether the last digit of `lo` is odd: whether it goes to `hi` (R313). -/
def Rounding.goesUp (mode : Rounding) (sign odd : Bool) (lo v hi : Rat) : Prop :=
  let nearer := hi - v < v - lo
  let tie := hi - v = v - lo
  match mode with
  | .nearestEven => nearer ∨ (tie ∧ odd = true)
  | .nearestOdd => nearer ∨ (tie ∧ odd = false)
  | .nearestAway => nearer ∨ tie
  | .nearestPos => nearer ∨ (tie ∧ sign = false)
  | .nearestNeg => nearer ∨ (tie ∧ sign = true)
  | .nearestZero => nearer
  | .away => True
  | .positive => sign = false
  | .negative => sign = true
  | .toZero => False

end Sys2Proof.Machine
end

