-- ==== Sys2Proof/Certificates/Slice0/Obligations.lean ====
section
/-! DEFINITION. The statements for the provers.  OBLIGATIONS.json lists them with the rules they rest on.  The states of
these statements are any states, reachable or not; what a statement needs of the state stands in its hypotheses. -/
open Sys2Proof Sys2Proof.Machine

/-! ## Encoding and decoding -/

/-- Every operand of every instruction survives encoding and decoding. -/
def Obligations.DecodeOfEncode : Prop :=
  ∀ i : Instr, WellFormed i → decode (encode i) = .ok i

/-- The words that decode to no instruction are those R156 lists, and every decoded instruction is well formed. The
list is the spec's derivation, its fixed cells the spec's decision D8 (log 28, 29). -/
def Obligations.InvalidWords : Prop :=
  ∀ w : Word, ((∃ e, decode w = .error e) ↔ InvalidWord w) ∧ ∀ i, decode w = .ok i → WellFormed i

/-- Bits a form does not use have no effect on decoding: register addressing (13:6), indexed addressing (13:12),
inter-register transfers (13:6), two-operand integer register forms (13:12 and 5:0, and bit 25 of AND, NAND, OR, XOR), MAD
and MSU register forms (13:12), two-operand FP forms (13:12 and 5:0), one-operand FP forms (13:0), FMAD and FMSU (13:12),
JMP and WAIT register forms (23:18, 13:12 and 5:0), branch register forms (13:12 and 5:0), returns without argument (23:18
and 13:0), RETE and RETN with a register (23:18, 13:12 and 5:0).  The spec's decision D8 (log 29). -/
def Obligations.UnusedBitsIgnored : Prop :=
  ∀ v w : Word,
    let group := w.extractLsb' 30 2
    let aux := (w.extractLsb' 14 4).toNat
    let b24 := w.getLsbD 24 = true
    let b25 := w.getLsbD 25 = true
    let b26 := w.getLsbD 26 = true
    let transfer := w.getLsbD 31 = true
    let alu := group = 0
    let control := group = 1
    let onlyUsed := fun used : Word => v &&& used = w &&& used → decode v = decode w
    (transfer → ¬b24 → ¬b26 → aux < 8 → onlyUsed 0xFFFFC03F#32) ∧
    (transfer → ¬b24 → ¬b26 → 8 ≤ aux → onlyUsed 0xFFFFCFFF#32) ∧
    (transfer → b24 → ¬b26 → onlyUsed 0xFFFFC03F#32) ∧
    (alu → ¬b24 → ¬b26 → aux < 14 → onlyUsed 0xFFFFCFC0#32) ∧
    (alu → ¬b24 → ¬b26 → 7 ≤ aux → aux ≤ 10 → onlyUsed 0xFDFFCFC0#32) ∧
    (alu → ¬b24 → ¬b26 → 14 ≤ aux → onlyUsed 0xFFFFCFFF#32) ∧
    (alu → b24 → aux ≤ 5 → onlyUsed 0xFFFFCFC0#32) ∧
    (alu → b24 → 6 ≤ aux → aux ≤ 13 → onlyUsed 0xFFFFC000#32) ∧
    (alu → b24 → 14 ≤ aux → onlyUsed 0xFFFFCFFF#32) ∧
    (control → ¬b26 → aux = 0 ∨ aux = 14 → onlyUsed 0xFF03CFC0#32) ∧
    (control → ¬b26 → 1 ≤ aux → aux ≤ 12 → onlyUsed 0xFFFFCFC0#32) ∧
    (control → ¬b26 → ¬b25 → aux = 13 → onlyUsed 0xFF03C000#32) ∧
    (control → ¬b26 → b25 → aux = 13 → onlyUsed 0xFF03CFC0#32)

/-- Words the spec's examples print decode to the instructions they stand for. -/
def Obligations.ExampleWordsDecode : Prop :=
  decode 0xCC0C0085 = .ok (.movLoadDisp .h 3 2 5) ∧
  decode 0x900C0002 = .ok (.movStoreReg .w 3 2) ∧
  decode 0xD80F4081 = .ok (.movLoadIdxPreInc .d 3 2 1) ∧
  decode 0xC13C8003 = .ok (.movSpcReg .b 15 3) ∧
  decode 0xD50FFFFB = .ok (.movImm .w false 3 0x3FFFB) ∧
  decode 0x100C0080 = .ok (.addR .w false 3 2) ∧
  decode 0x140C76EB = .ok (.subI .w false 3 0x36EB) ∧
  decode 0x0A0CC080 = .ok (.divR .h true 3 2) ∧
  decode 0x060D8001 = .ok (.rrI .b 3 1) ∧
  decode 0x160E7F0F = .ok (.orI .w true 3 0x3F0F) ∧
  decode 0x120F0080 = .ok (.rvbR .w 3 2) ∧
  decode 0x010F8081 = .ok (.fmad 3 2 1) ∧
  decode 0x110E8000 = .ok (.ff2i .w false 3) ∧
  decode 0x140F90A4 = .ok (.madI .w false 3 2 100) ∧
  decode 0x46FC3FFD = .ok (.jmpO true false 0xFFFFD) ∧
  decode 0x5608400F = .ok (.bzO .w true false 2 15) ∧
  decode 0x5E034019 = .ok (.retnO false 25) ∧
  decode 0x440381F4 = .ok (.waitO 500)

/-- IMMEDIATE18 and IMMEDIATE8 are the fields of their words (R145, R150); an immediate is zero-extended for U = 1,
sign-extended for U = 0, and truncated in a mode narrower than it, where U has no effect. -/
def Obligations.ImmediateExtension : Prop :=
  (∀ (m : MMode) (u : Bool) (d : RegNum) (x : BitVec 18), (encode (.movImm m u d x)).extractLsb' 0 18 = x) ∧
  (∀ (m : MMode) (u : Bool) (d r : RegNum) (x : BitVec 8), ∀ i ∈ [Instr.madI m u d r x, .msuI m u d r x],
    (encode i).extractLsb' 12 2 ++ (encode i).extractLsb' 0 6 = x) ∧
  ∀ (k w : Nat) (x : BitVec k), 0 < k →
    (k ≤ w → (extend true w x).toNat = x.toNat ∧ (extend false w x).toInt = x.toInt) ∧
    (w ≤ k → ∀ u, (extend u w x).toNat = x.toNat % 2 ^ w)

/-! ## Register files and memory -/

/-- The GPR file.  A read, bit by bit (R25): bit `b` is bit `b mod GPRW` of the register `b / GPRW` places on, circularly.
A write (R26): the `j`-th register of the datum receives its `j`-th part, the last part that falls on a register winning;
the bits above the written width and every other register of every bank keep their value.  That the bank is a copy of the
file, the one SCR[7:4] selects, is the spec's decision D16 (R29; log 29), the cell that holds a register is the model's
(log 30). -/
def Obligations.GprFile : Prop :=
  ∀ (s : State) (i : RegNum) (m : MMode),
    (∀ b, b < m.width →
      (s.readGpr i m.width).getLsbD b =
        (s.gpr.getD (s.bankBase + (i.toNat + b / s.cfg.gprw.width) % s.cfg.ngpr) 0).getLsbD (b % s.cfg.gprw.width)) ∧
    ∀ v : BitVec m.width, i.toNat < s.cfg.ngpr → s.bankBase + s.cfg.ngpr ≤ s.gpr.length →
      let cell := fun j => s.bankBase + (i.toNat + j) % s.cfg.ngpr
      let g := s.cfg.gprw.width
      let parts := max 1 (m.width / g)
      (s.writeGpr i v).gpr.length = s.gpr.length ∧
      (∀ j, j < parts → (∀ k, j < k → k < parts → cell k ≠ cell j) → ∀ b, b < 1024 →
        ((s.writeGpr i v).gpr.getD (cell j) 0).getLsbD b =
          if b < min m.width g then v.getLsbD (j * g + b) else (s.gpr.getD (cell j) 0).getLsbD b) ∧
      (∀ x, (∀ j, j < parts → x ≠ cell j) → (s.writeGpr i v).gpr.getD x 0 = s.gpr.getD x 0)

/-- The special registers are the slots of R37 in their order, each readable alone, and 64-bit registers at once.  A write
to the file (R36, R37), in every mode: the touched slots receive their parts, the last part that falls on a slot winning,
every other slot keeps its value; IMP keeps its value always, bit 0 of EXM is 0 always, and nothing but the special
registers changes. -/
def Obligations.SpecialRegisterFile : Prop :=
  ∀ s : State,
    (s.readSpc 0 64 = s.cfg.imp ∧ s.readSpc 2 32 = s.est ∧ s.readSpc 3 32 = s.exi ∧ s.readSpc 4 64 = s.exc ∧
      s.readSpc 6 64 = s.exm ∧ s.readSpc 8 64 = s.etb ∧ s.readSpc 10 64 = s.itb ∧ s.readSpc 12 32 = s.cid ∧
      s.readSpc 13 64 = s.pid ∧ s.readSpc 15 32 = s.scr ∧ s.readSpc 16 64 = s.nrp ∧ s.readSpc 18 64 = s.erp ∧
      s.readSpc 20 32 = s.ucr ∧ s.readSpc 21 64 = s.crp ∧ s.readSpc 23 64 = s.irp ∧ s.readSpc 25 64 = s.dcr ∧
      ∀ (k : Nat) (x : Word), s.spcSlots[k]? = some x → s.readSpc (BitVec.ofNat 6 k) 32 = x) ∧
    ∀ (i : RegNum) (m : MMode) (v : BitVec m.width), i.toNat < 27 →
      let t := s.writeSpc i v
      let parts := max 1 (m.width / 32)
      let slot := fun j => (i.toNat + j) % 27
      t = { s with est := t.est, exi := t.exi, exc := t.exc, exm := t.exm, etb := t.etb, itb := t.itb, cid := t.cid,
                   pid := t.pid, scr := t.scr, nrp := t.nrp, erp := t.erp, ucr := t.ucr, crp := t.crp, irp := t.irp,
                   dcr := t.dcr } ∧
      t.spcSlots.length = 27 ∧ t.spcSlots.take 2 = s.spcSlots.take 2 ∧
      (∀ k, 2 ≤ k → k < 27 → (∀ j, j < parts → k ≠ slot j) → ∀ b, b < 32 →
        (t.spcSlots.getD k 0).getLsbD b = ((s.spcSlots.getD k 0).getLsbD b && decide (k ≠ 6 ∨ b ≠ 0))) ∧
      (∀ j, j < parts → 2 ≤ slot j → (∀ k, j < k → k < parts → slot k ≠ slot j) → ∀ b, b < 32 →
        (t.spcSlots.getD (slot j) 0).getLsbD b =
          ((if b < min m.width 32 then v.getLsbD (32 * j + b)
            else (s.spcSlots.getD (slot j) 0).getLsbD b) && decide (slot j ≠ 6 ∨ b ≠ 0)))

/-- EXCEPTION MASKS (R47), 64 bits in the order of EXC: a write to the special register file, in any mode at any slot, leaves
bit 0 zero whatever the written value; a 64-bit write to EXM writes every other bit; a set bit makes its exception
impotent, and only its own; a reset leaves no exception masked. -/
def Obligations.ExceptionMasks : Prop :=
  ∀ s : State,
    (∀ (i : RegNum) (m : MMode) (v : BitVec m.width), (s.writeSpc i v).exm.getLsbD 0 = false) ∧
    (∀ v : BitVec 64, ∀ n, 1 ≤ n → n < 64 → (s.writeSpc 6 v).exm.getLsbD n = v.getLsbD n) ∧
    (∀ n, 1 ≤ n → n < 64 → (s.exm.getLsbD n = true → s.potent (1#64 <<< n) = false) ∧
      (s.exm.getLsbD n = false → s.potent (1#64 <<< n) = s.scr.getLsbD 2)) ∧
    s.systemReset.exm = 0 ∧ State.reset.exm = 0

/-- The register files an implementation may have besides, read and written: the DSP file and the implementation-specific
files by R25 and R26 (R212, R213), the raw FP registers `min(w, FPRW)` bits at a time (R214, R215), the FP operand
`F(i)` in the FP file or, with all physical bits, in the GPR file (R311), the integer and narrow operands of FP
conversions in the same file; and the transfers of an implementation-specific file (R65, R147).  The width of raw FP
transfers is 93_implementation_defined.md's (log 17), the file of conversions, the transfers of specific files and an FP
datum that is no whole number of registers are the model's reading (log 18, 38, 41). -/
def Obligations.OptionalRegisterFiles : Prop :=
  ∀ (s : State), s.cfg.valid = true → s.FilesOk → s.bankBase + s.cfg.ngpr ≤ s.gpr.length →
    (∀ (f : DspFile) (i : RegNum) (m : MMode) (v : BitVec m.width), s.cfg.dsp = some f → i.toNat < f.count →
      FileRead s.dsp 0 f.count f.width.width i.toNat (s.readDsp f i m.width) ∧
      s.writeDsp f i v = { s with dsp := (s.writeDsp f i v).dsp } ∧
      FileWritten s.dsp (s.writeDsp f i v).dsp 0 f.count f.width.width i.toNat v) ∧
    (∀ (f : FprFile) (i : RegNum) (m : MMode) (v : BitVec m.width), s.cfg.fpr = some f → i.toNat < f.count →
      let t := s.writeFpr f i v
      (∀ b, b < m.width → b < f.width → (s.readFpr f i m.width).getLsbD b = (s.fpr.getD i.toNat 0).getLsbD b) ∧
      t = { s with fpr := t.fpr } ∧ t.fpr.length = s.fpr.length ∧
      (∀ b, b < 1024 → (t.fpr.getD i.toNat 0).getLsbD b =
        if b < min m.width f.width then v.getLsbD b else (s.fpr.getD i.toNat 0).getLsbD b) ∧
      ∀ x, x ≠ i.toNat → t.fpr.getD x 0 = s.fpr.getD x 0) ∧
    (∀ (i : RegNum) (m : MMode) (v : BitVec s.cfg.fpw) (x : BitVec m.width), s.cfg.fpr = none → i.toNat < s.cfg.ngpr →
      FileRead s.gpr s.bankBase s.cfg.ngpr s.cfg.gprwPhys i.toNat (s.readFp i) ∧
      s.writeFp i v = { s with gpr := (s.writeFp i v).gpr } ∧
      FileWritten s.gpr (s.writeFp i v).gpr s.bankBase s.cfg.ngpr s.cfg.gprwPhys i.toNat v ∧
      s.readFpPart i m.width = s.readGpr i m.width ∧ s.writeFpPart i x = s.writeGpr i x) ∧
    (∀ (f : FprFile) (i : RegNum) (m : MMode) (v : BitVec s.cfg.fpw) (x : BitVec m.width), s.cfg.fpr = some f →
      i.toNat < f.count →
      FileRead s.fpr 0 f.count f.width i.toNat (s.readFp i) ∧
      s.writeFp i v = { s with fpr := (s.writeFp i v).fpr } ∧
      FileWritten s.fpr (s.writeFp i v).fpr 0 f.count f.width i.toNat v ∧
      ∃ part : MMode, part.width ≤ f.width ∧ (f.width < 2 * part.width ∨ part = .s4) ∧
        FileRead s.fpr 0 f.count part.width i.toNat (s.readFpPart i m.width) ∧
        s.writeFpPart i x = { s with fpr := (s.writeFpPart i x).fpr } ∧
        FileWritten s.fpr (s.writeFpPart i x).fpr 0 f.count part.width i.toNat x) ∧
    (∀ (k : Nat) (f : ExtraFile) (i : RegNum) (m : MMode) (v : BitVec m.width), s.cfg.extraFiles[k]? = some f →
      i.toNat < f.count →
      let t := s.writeExtra k f i v
      FileRead (s.extra.getD k []) 0 f.count f.width.width i.toNat (s.readExtra k f i m.width) ∧
      t = { s with extra := t.extra } ∧ t.extra.length = s.extra.length ∧
      FileWritten (s.extra.getD k []) (t.extra.getD k []) 0 f.count f.width.width i.toNat v ∧
      ∀ j, j ≠ k → t.extra.getD j [] = s.extra.getD j []) ∧
    ∀ (k : Nat) (f : ExtraFile) (w : Word), s.ReadyToFetch → s.debugMode = false → s.quiet.fetch = some w →
      s.cfg.extraFiles[k]? = some f → w &&& 0xC7000000#32 = 0xC1000000#32 →
      let e := s.quiet.executing w
      let m := MMode.ofCode (w.extractLsb' 27 3)
      let d : RegNum := w.extractLsb' 18 6
      let r : RegNum := w.extractLsb' 0 6
      m.width ≤ s.cfg.maxXfer.width →
      (f.toGpr = some (w.extractLsb' 14 4) → d.toNat < s.cfg.ngpr → r.toNat < f.count →
        step s = .next { e.writeGpr d (e.readExtra k f r m.width) with ic := s.icWrap (s.ic + 1) }) ∧
      (f.fromGpr = some (w.extractLsb' 14 4) → d.toNat < f.count → r.toNat < s.cfg.ngpr →
        step s = .next { e.writeExtra k f d (e.readGpr r m.width) with ic := s.icWrap (s.ic + 1) })

/-- The byte order of memory (R106): what a load returns and what a store puts at each byte, the addresses modulo
2^PAW; a store changes no other byte; a load of the stored bytes returns the value.  An instruction is the four bytes at
`4 * IC` in the same order (R30, R108); its fetch fails where the bus does.  The big-endian formula is the spec's, from
general knowledge, the wrap its decision D28, the order of an instruction's bytes its decision D2, that a fetch reads
the memory of the data its decision D6 (log 29), the failing bus log 9. -/
def Obligations.MemoryByteOrder : Prop :=
  (∀ (s : State) (m : MMode) (a : Nat), s.cfg.translation = [] → s.dataFault = false →
    let n := m.width / 8
    let place := fun k => match s.cfg.endian with
      | .little => (a + k) % 2 ^ s.cfg.paw
      | .big => (a + n - 1 - k) % 2 ^ s.cfg.paw
    (∃ v, s.memRead .read a m.width = some v ∧
      ∀ k, k < n → v.extractLsb' (8 * k) 8 = memByte s.mem (place k)) ∧
    (∀ v : BitVec m.width, Memory.wf s.mem = true → n ≤ 2 ^ s.cfg.paw →
      ∃ t, s.memWrite a v = some t ∧ t = { s with mem := t.mem } ∧
        (∀ k, k < n → memByte t.mem (place k) = v.extractLsb' (8 * k) 8) ∧
        (∀ x, (∀ k, k < n → x ≠ place k) → memByte t.mem x = memByte s.mem x) ∧
        t.memRead .read a m.width = some v)) ∧
  (∀ s : State, s.cfg.translation = [] →
    (s.fetchFault = true → s.fetch = none) ∧
    (s.fetchFault = false → ∃ w, s.fetch = some w ∧ ∀ k, k < 4 → w.extractLsb' (8 * k) 8 = memByte s.mem
      ((match s.cfg.endian with
        | .little => 4 * s.ic.toNat + k
        | .big => 4 * s.ic.toNat + 3 - k) % 2 ^ s.cfg.paw)))

/-- The effective address and the index update of a memory transfer (R205). The widths are the spec's decision D28
(log 29). -/
def Obligations.EffectiveAddress : Prop :=
  ∀ (s : State) (m : MMode) (base idx : RegNum) (off : BitVec 12), s.cfg.paw ≤ s.cfg.pawm.width →
    let top : Int := 2 ^ s.cfg.paw
    let b : Int := (s.readGpr base s.cfg.pawm.width).toNat
    let i0 := s.readGpr idx s.cfg.pawm.width
    let step := BitVec.ofNat s.cfg.pawm.width (m.width / 8)
    let ea := fun x : Addr => (s.effective m x : Int)
    let iw := fun x : Addr => s.indexWrite m x
    (ea (.disp base off) = (b + off.toInt) % top ∧ iw (.disp base off) = none) ∧
    (ea (.reg idx .keep) = i0.toNat % top ∧ iw (.reg idx .keep) = none) ∧
    (ea (.reg idx .postInc) = i0.toNat % top ∧ iw (.reg idx .postInc) = some (idx, i0 + step)) ∧
    (ea (.reg idx .postDec) = i0.toNat % top ∧ iw (.reg idx .postDec) = some (idx, i0 - step)) ∧
    (ea (.reg idx .preInc) = (i0 + step).toNat % top ∧ iw (.reg idx .preInc) = some (idx, i0 + step)) ∧
    (ea (.reg idx .preDec) = (i0 - step).toNat % top ∧ iw (.reg idx .preDec) = some (idx, i0 - step)) ∧
    (ea (.indexed base idx .keep) = (b + i0.toNat) % top ∧ iw (.indexed base idx .keep) = none) ∧
    (ea (.indexed base idx .postInc) = (b + i0.toNat) % top ∧ iw (.indexed base idx .postInc) = some (idx, i0 + step)) ∧
    (ea (.indexed base idx .postDec) = (b + i0.toNat) % top ∧ iw (.indexed base idx .postDec) = some (idx, i0 - step)) ∧
    (ea (.indexed base idx .preInc) = (b + (i0 + step).toNat) % top ∧
      iw (.indexed base idx .preInc) = some (idx, i0 + step)) ∧
    (ea (.indexed base idx .preDec) = (b + (i0 - step).toNat) % top ∧
      iw (.indexed base idx .preDec) = some (idx, i0 - step))

/-! ## The step -/

/-- A step runs the decoded instruction: where nothing is pending and the fetched word decodes to `i`, the step is
`exec i` on the state with the word in `ir`; in debug mode a completed instruction raises exception 1 after it (R490,
R458). When DEBUG MODE is raised is the spec's decision D32, what counts as completed log 6. -/
def Obligations.StepRunsDecodedInstruction : Prop :=
  ∀ (s : State) (w : Word) (i : Instr), s.ReadyToFetch → s.quiet.fetch = some w → decode w = .ok i →
    (∀ t, exec i (s.quiet.executing w) = .next t →
      step s = .next (if s.debugMode = true ∧ t.abandoned = false ∧ t.run = .running then t.raiseHw 1 else t)) ∧
    (∀ e, exec i (s.quiet.executing w) = .fault e → step s = .fault e) ∧
    (∀ e, exec i (s.quiet.executing w) = .refused e → step s = .refused e)

/-- Every step from a state that meets the invariant of the machine gives a state that meets it. -/
def Obligations.StepKeepsInv : Prop :=
  ∀ s t : State, s.Inv → step s = .next t → t.Inv

/-- The machine meets its invariant right after reset, REF32 and every implementation the spec allows. -/
def Obligations.ResetMeetsInv : Prop :=
  State.reset.Inv ∧ ∀ c : Config, c.valid = true → (State.resetWith c).Inv

/-- The order of R490 for a running core: NMI, then a set and unmasked EXC bit while exceptions are enabled, then an
enabled interrupt, then an instruction; before it the requests on the lines are latched (R34, R457, R480), other agents
write memory, and hardware-raised exceptions set their EXC bits and EXI (R454).  The order is the spec's decision D15
and the latching its decision D31 (log 29), the list of inputs is the model's (log 7), which exceptions are accepted log 23. -/
def Obligations.BoundaryOrder : Prop :=
  ∀ s : State, s.cfg.valid = true → s.run = .running →
    let order := fun t : State =>
      let due := t.scr.getLsbD 2 = true ∧ ∃ n, n < 64 ∧ t.exc.getLsbD n = true ∧ t.exm.getLsbD n = false
      let irq := t.irqPending = true ∧ t.scr.getLsbD 3 = true
      (t.nmiPending = true → step s = .next (t.enter .nmi)) ∧
      (t.nmiPending = false → due → step s = .next (t.enter .exception)) ∧
      (t.nmiPending = false → ¬due → irq → step s = .next (t.enter .interrupt)) ∧
      (t.nmiPending = false → ¬due → ¬irq →
        (t.fetch = none → step s = .next t.iBusError) ∧ (∀ w, t.fetch = some w → step s = t.execute w))
    (s.inputs = [] → order s.quiet) ∧
    (∀ i rest, s.inputs = i :: rest → i.reset = false → order ((s.acted i rest).notedBetween i.raise)) ∧
    (∀ c : Host.Cell, Memory.wf s.mem = true → ∀ a,
      memByte (s.externalWrite c).mem a = if a = c.1 % 2 ^ s.cfg.paw then c.2 else memByte s.mem a)

/-- Entering a handler: NMI (R457), exception (R456), interrupt (R481). The return pointer, the saved SCR bits, the
new SCR bit by bit, IC from the table base; nothing else changes. The saved records and what a pointer holds are the
spec's decisions D12, D19 and D36, that the reservation is gone its decision D7, the width of IC D13 (log 29). -/
def Obligations.HandlerEntry : Prop :=
  ∀ s : State,
    (∃ scr : Word,
      s.enter .nmi = { s with nmiPending := false, savNmi := some ⟨s.scr.getLsbD 0, s.scr.getLsbD 2, s.scr.getLsbD 3⟩,
                              nrp := s.ic, exc := s.exc ||| 1, exi := s.fetch.getD s.exi, scr := scr,
                              ic := BitVec.ofNat 64 (s.etb.toNat % 2 ^ s.cfg.icw), resv := none } ∧
      ∀ k, k < 32 → scr.getLsbD k = if k = 0 then true else if k = 2 ∨ k = 3 then false else s.scr.getLsbD k) ∧
    (∃ scr : Word,
      s.enter .exception = { s with savExc := some ⟨s.scr.getLsbD 0, s.scr.getLsbD 2, s.scr.getLsbD 3⟩, erp := s.ic,
                                    scr := scr, ic := BitVec.ofNat 64 (s.etb.toNat % 2 ^ s.cfg.icw), resv := none } ∧
      ∀ k, k < 32 → scr.getLsbD k = if k = 0 then true else if k = 2 ∨ k = 3 then false else s.scr.getLsbD k) ∧
    (∃ scr : Word,
      s.enter .interrupt = { s with irqPending := false, savIrq := some (s.scr.getLsbD 3), irp := s.ic, scr := scr,
                                    ic := BitVec.ofNat 64 (s.itb.toNat % 2 ^ s.cfg.icw), resv := none } ∧
      ∀ k, k < 32 → scr.getLsbD k = if k = 0 then true else if k = 3 then false else s.scr.getLsbD k)

/-- The first instruction of a handler returns: RETE and RETN without argument give back IC and the whole SCR of the
interrupted program, RETI gives back IC and SCR bit 3, and system mode stays (R456, R457, R481, R486, R482). The
saved records are the spec's decision D19 (log 29). -/
def Obligations.EntryThenReturn : Prop :=
  ∀ s : State, s.ic.toNat < 2 ^ s.cfg.icw →
    (s.cfg.has .rete = true →
      ∃ t, exec (.rete false) (s.enter .exception) = .next t ∧ t.ic = s.ic ∧ t.scr = s.scr ∧ t.savExc = none ∧
        t = { s.enter .exception with ic := s.ic, scr := s.scr, savExc := none }) ∧
    (s.cfg.has .retn = true →
      ∃ t, exec (.retn false) (s.enter .nmi) = .next t ∧ t.ic = s.ic ∧ t.scr = s.scr ∧ t.savNmi = none ∧
        t = { s.enter .nmi with ic := s.ic, scr := s.scr, savNmi := none }) ∧
    (s.cfg.has .reti = true →
      ∃ t, exec (.reti false) (s.enter .interrupt) = .next t ∧ t.ic = s.ic ∧ t.savIrq = none ∧
        ∀ k, k < 32 → t.scr.getLsbD k = if k = 0 then true else s.scr.getLsbD k)

/-- A failing fetch (R474): potent, only EXC[20] is set and IC stays; impotent, the core is stuck with the error line set
and EXC[20] set, and nothing else of its registers and memory is said.  A stuck core executes nothing and takes no event
but a reset: it stays stuck with the line set, and faults where the environment has nothing more to do.  The model of the
failure is the spec's decision D24 (log 29), the fault the model's (log 14), the list of inputs log 7. -/
def Obligations.FetchFailure : Prop :=
  ∀ s : State,
    (s.ReadyToFetch → s.quiet.fetch = none →
      (s.scr.getLsbD 2 = true → s.exm.getLsbD 20 = false →
        step s = .next { s.quiet with exc := s.exc ||| 0x100000#64 }) ∧
      ((s.scr.getLsbD 2 = false ∨ s.exm.getLsbD 20 = true) →
        ∃ t, step s = .next t ∧ t.run = .stuck ∧ t.error = true ∧ t.exc.getLsbD 20 = true)) ∧
    (s.cfg.valid = true → s.run = .stuck →
      (s.inputs = [] → step s = .fault .stuck) ∧
      (∀ i rest, s.inputs = i :: rest → i.reset = false →
        ∃ t, step s = .next t ∧ t.run = .stuck ∧ t.error = s.error ∧ t.inputs = rest))

/-- A word R156 lists that is no transfer of an implementation-specific file (R65) raises INVALID INSTRUCTION, and nothing
but EXC, EXI and IC changes (R459). EXI on an impotent exception is the spec's decision D10 (log 29), the form of the
specific files log 38. -/
def Obligations.InvalidInstructionTraps : Prop :=
  ∀ (s : State) (w : Word), s.ReadyToFetch → s.debugMode = false → s.quiet.fetch = some w → InvalidWord w →
    (w &&& 0xC7000000#32 = 0xC1000000#32 → ∀ f ∈ s.cfg.extraFiles,
      f.toGpr ≠ some (w.extractLsb' 14 4) ∧ f.fromGpr ≠ some (w.extractLsb' 14 4)) →
    step s = .next ((s.quiet.executing w).skipped 2)

/-- The reset input, on a core in any state: every register the spec resets, while the register files and memory keep
their contents (R530, R531, R532). The special registers and the instruction counter after reset (R66): in
`State.reset`, and, where the parameter cidReset that CORE ID takes is 0 (the default), after a step of a core in any
state whose input is a system reset, IC and every special register are zero but SCR, which is 1, and IMP, which keeps
its value. What is kept, the hidden state and CORE ID's parameter are the spec's decision D9 (log 29), the list of
inputs is the model's (log 7). -/
def Obligations.SystemReset : Prop :=
  (∀ (s : State) (i : Input) (rest : List Input), s.cfg.valid = true → s.inputs = i :: rest → i.reset = true →
    i.writes = [] →
    ∃ t, step s = .next t ∧ t.gpr = s.gpr ∧ t.dsp = s.dsp ∧ t.fpr = s.fpr ∧ t.extra = s.extra ∧ t.mem = s.mem ∧
      t.cfg = s.cfg ∧
      t.ic = 0 ∧ t.est = 0 ∧ t.exi = 0 ∧ t.exc = 0 ∧ t.exm = 0 ∧ t.etb = 0 ∧ t.itb = 0 ∧ t.cid = s.cfg.cidReset ∧
      t.pid = 0 ∧ t.scr = 1 ∧ t.nrp = 0 ∧ t.erp = 0 ∧ t.ucr = 0 ∧ t.crp = 0 ∧ t.irp = 0 ∧ t.dcr = 0 ∧
      t.run = .running ∧ t.waitTimer = 0 ∧ t.resv = none ∧ t.nmiPending = false ∧ t.irqPending = false ∧
      t.savExc = none ∧ t.savNmi = none ∧ t.savIrq = none ∧ t.error = false ∧ t.inputs = rest) ∧
  (let zeroed := fun (t : State) => t.ic = 0 ∧
    t.spcSlots.drop 2 = [0, 0, 0, 0, 0, 0, 0, 0, 0, 0, 0, 0, 0, 1, 0, 0, 0, 0, 0, 0, 0, 0, 0, 0, 0]
  zeroed State.reset ∧ State.reset.readSpc 0 64 = State.reset.cfg.imp ∧
  ∀ (s : State) (i : Input) (rest : List Input), s.cfg.valid = true → s.cfg.cidReset = 0 → s.inputs = i :: rest →
    i.reset = true → ∃ t, step s = .next t ∧ zeroed t ∧ t.spcSlots.take 2 = s.spcSlots.take 2)

/-- Only a reset, an NMI, a potent exception or an enabled interrupt switches to system mode (R500), but for a core that
ends stuck, of whose registers nothing is said (R474): no instruction does, nor does a step without them, be they pending
before it or arriving in it (R34, R454, R457, R480).  The latching is the spec's decision D31 (log 29), the list of inputs
is log 7, the hardware-raised exceptions that count are log 23. -/
def Obligations.UserModeStaysUser : Prop :=
  (∀ (i : Instr) (s t : State), s.scr.getLsbD 0 = false → exec i s = .next t → t.scr.getLsbD 0 = false) ∧
  (∀ s t : State, s.scr.getLsbD 0 = false → s.inputs = [] → step s = .next t → t.scr.getLsbD 0 = true →
    s.nmiPending = true ∨
    (s.scr.getLsbD 2 = true ∧ ∃ n, n < 64 ∧ s.exc.getLsbD n = true ∧ s.exm.getLsbD n = false) ∨
    (s.irqPending = true ∧ s.scr.getLsbD 3 = true) ∨ t.run = .stuck) ∧
  (∀ (s t : State) (i : Input) (rest : List Input), s.scr.getLsbD 0 = false → s.inputs = i :: rest → step s = .next t →
    t.scr.getLsbD 0 = true →
    i.reset = true ∨ (s.nmiPending = true ∨ i.nmi = true) ∨
    (s.scr.getLsbD 2 = true ∧ ∃ n, n < 64 ∧
      (s.exc.getLsbD n = true ∨ n ∈ i.raise ∧ (n ∈ s.cfg.hwExceptions ∨ s.cfg.dsp.isSome = true ∧ 16 ≤ n ∧ n ≤ 19)) ∧
      s.exm.getLsbD n = false) ∨
    ((s.irqPending = true ∨ i.irq = true) ∧ s.scr.getLsbD 3 = true) ∨ t.run = .stuck)

/-- An instruction that a potent exception abandons changes nothing but EXC, EXI and IC, and some bit of those it sets
in EXC is enabled and unmasked (R452, R475). A load or store that a potent D SYSTEM BUS ERROR ends is among them: that
it writes EXI with its word, advances IC and keeps the reservation and memory is the spec's decision D25 (log 29). The
field `abandoned` is the model's (log 6). -/
def Obligations.PotentExceptionAbandons : Prop :=
  ∀ (i : Instr) (s t : State), s.abandoned = false → exec i s = .next t → t.abandoned = true →
    ∃ mask : BitVec 64,
      t = { s with exc := s.exc ||| mask, exi := s.ir, ic := s.icWrap (s.ic + 1), abandoned := true } ∧
      s.scr.getLsbD 2 = true ∧ ∃ n, n < 64 ∧ mask.getLsbD n = true ∧ s.exm.getLsbD n = false

/-! ## Integer arithmetic -/

/-- ADD and SUB, register and immediate forms (R232, R233, R236): the result, the flags, OVERFLOW. That an unsigned SUB
below zero raises OVERFLOW is the spec's own reading (R233, derived); the value written on an impotent OVERFLOW is its
decision D11 (log 31), EXI on it its decision D10 (log 29). -/
def Obligations.AddSubResult : Prop :=
  ∀ (s : State) (sub : Bool) (m : MMode) (u : Bool) (d : RegNum) (i : Instr) (b : BitVec m.width),
    s.cfg.implements (if sub then .sub else .add) m = true → d.toNat < s.cfg.ngpr →
    s.SecondOperand m.width u (fun r => if sub then .subR m u d r else .addR m u d r)
      (fun x => if sub then .subI m u d x else .addI m u d x) i b →
    let a := s.readGpr d m.width
    let exact := if sub then valueOf u a - valueOf u b else valueOf u a + valueOf u b
    let res := if sub then a - b else a + b
    let fits := if u then 0 ≤ exact ∧ exact < 2 ^ m.width
      else -2 ^ (m.width - 1) ≤ exact ∧ exact < 2 ^ (m.width - 1)
    let written := match s.cfg.ovfWriteback with
      | .max => if u then BitVec.allOnes m.width else BitVec.intMax m.width
      | .wrap => res
    (fits → exec i s = .next (s.writtenBack d res (ruleFlags (!u) a b res))) ∧
    (¬fits → s.potent 0x200 = false →
      exec i s = .next ((s.noted 9).writtenBack d written { ruleFlags (!u) a b res with overflow := true })) ∧
    (¬fits → s.potent 0x200 = true → exec i s = .next (s.skipped 9))

/-- MUL, register and immediate forms (R234): AUXCODE and F of their words; the exact product, which always fits, in
double width, written from DESTINATION on, the lower part first, after the last register in register 0; its flags;
UNIMPLEMENTED INSTRUCTION where the implementation does not provide it or IMP bit 45 is 0, UNIMPLEMENTED REGISTER where
a register does not exist. That UNIMPLEMENTED INSTRUCTION alone is raised where a register does not exist either is the
order of the checks, the spec's decision D38 (R160; log 29); the bank and the place of a register's bits in the file are
its decision D16 (log 29) and log 30, that EST[31:16] stays its decision D22 (log 29). -/
def Obligations.MulProduct : Prop :=
  ∀ (s : State) (m : MMode) (u : Bool) (d r : RegNum) (x : BitVec 14),
    (∀ i ∈ [Instr.mulR m u d r, .mulI m u d x], (encode i).extractLsb' 14 4 = 0b0010 ∧ (encode i).getLsbD 24 = false) ∧
    (s.cfg.implements .mul m = true → d.toNat < s.cfg.ngpr → ∀ (i : Instr) (b : BitVec m.width),
      s.SecondOperand m.width u (.mulR m u d) (.mulI m u d) i b →
      let a := s.readGpr d m.width
      let g := s.cfg.gprw.width
      ∃ (res : BitVec (2 * m.width)) (t : State), valueOf u res = valueOf u a * valueOf u b ∧
        t = s.writtenBack d res (ruleFlags (!u) a b res) ∧ exec i s = .next t ∧
        (pieces (2 * m.width) g ≤ s.cfg.ngpr → s.bankBase + s.cfg.ngpr ≤ s.gpr.length → ∀ k, k < 2 * m.width →
          (t.gpr.getD (s.bankBase + (d.toNat + k / g) % s.cfg.ngpr) 0).getLsbD (k % g) = res.getLsbD k)) ∧
    (s.cfg.implements .mul m = false ∨ s.cfg.imp.getLsbD 45 = false →
      ∀ i ∈ [Instr.mulR m u d r, .mulI m u d x], ∃ t, exec i s = .next t ∧ t.exc = s.exc ||| 0x20#64 ∧ t.gpr = s.gpr) ∧
    (s.cfg.implements .mul m = true →
      (s.cfg.ngpr ≤ d.toNat ∨ s.cfg.ngpr ≤ r.toNat →
        ∃ t, exec (.mulR m u d r) s = .next t ∧ t.exc = s.exc ||| 0x40#64 ∧ t.gpr = s.gpr) ∧
      (s.cfg.ngpr ≤ d.toNat →
        ∃ t, exec (.mulI m u d x) s = .next t ∧ t.exc = s.exc ||| 0x40#64 ∧ t.gpr = s.gpr))

/-- DIV, register and immediate forms (R235): quotient and remainder, division by zero, the overflow case. Truncation,
the flags and the order of the two writes are the spec's decisions D39, D23 and D29 (log 29). EXI on an impotent
exception is the spec's decision D10 (log 29). -/
def Obligations.DivQuotientRemainder : Prop :=
  ∀ (s : State) (m : MMode) (u : Bool) (d : RegNum) (i : Instr) (b : BitVec m.width),
    s.cfg.implements .div m = true → d.toNat < s.cfg.ngpr →
    s.SecondOperand m.width u (.divR m u d) (.divI m u d) i b →
    let a := s.readGpr d m.width
    let r := (d.toNat + max 1 (m.width / s.cfg.gprw.width)) % s.cfg.ngpr
    let overflows := u = false ∧ a = BitVec.intMin m.width ∧ b = BitVec.allOnes m.width
    let most := if u then BitVec.allOnes m.width else BitVec.intMax m.width
    let done := fun (t : State) (q rem : BitVec m.width) (f : EstFlags) =>
      (((t.writeGpr d q).writeGprAt r rem).setFlags f).advance
    (b ≠ 0 → ¬overflows →
      let q := if u then a / b else a.sdiv b
      let rem := if u then a % b else a.srem b
      exec i s = .next (done s q rem (ruleFlags (!u) a b q))) ∧
    (b = 0 → s.potent 0x100 = false →
      exec i s = .next (done (s.noted 8) most 0 { ruleFlags (!u) a b most with divisionByZero := true })) ∧
    (overflows → s.potent 0x200 = false →
      exec i s = .next (done (s.noted 9) most 0 { ruleFlags (!u) a b most with overflow := true })) ∧
    (b = 0 → s.potent 0x100 = true → exec i s = .next (s.skipped 8)) ∧
    (overflows → s.potent 0x200 = true → exec i s = .next (s.skipped 9))

/-- MAD and MSU, register and immediate forms: the exact value modulo `2^(2w)`, in double width; the comparison is of
the first two operands (R350, R351, R352). That MSU wraps and the comparison are the spec's (derived, D23; log 29). -/
def Obligations.MadMsuResult : Prop :=
  ∀ (s : State) (sub : Bool) (m : MMode) (u : Bool) (d r : RegNum) (i : Instr) (c : BitVec m.width),
    s.cfg.implements (if sub then .msu else .mad) m = true → d.toNat < s.cfg.ngpr → r.toNat < s.cfg.ngpr →
    s.ThirdOperand m.width u (fun r2 => if sub then .msuR m u d r r2 else .madR m u d r r2)
      (fun x => if sub then .msuI m u d r x else .madI m u d r x) i c →
    let a := s.readGpr d m.width
    let b := s.readGpr r m.width
    let product := valueOf u a * valueOf u b
    let exact := if sub then product - valueOf u c else product + valueOf u c
    ∃ res : BitVec (2 * m.width), (res.toNat : Int) = exact % 2 ^ (2 * m.width) ∧
      (sub = false → valueOf u res = exact) ∧
      exec i s = .next (s.writtenBack d res (ruleFlags (!u) a b res))

/-! ## Shifts, rotates, logic, bit operations -/

/-- SL and SR, register and immediate forms (R250 to R252). SL: `a * 2^c` modulo `2^w`; the arithmetic shift raises
OVERFLOW where the MSB changes. SR: the floor of the quotient by `2^c`, of the unsigned number for the logic shift, of
the signed one for the arithmetic shift. Long counts and the literal MSB test are the spec's decisions D40 and D41 (log
29). EXI on an impotent exception is the spec's decision D10 (log 29). -/
def Obligations.ShiftResult : Prop :=
  (∀ (s : State) (m : MMode) (u : Bool) (d : RegNum) (i : Instr) (b : BitVec m.width),
      s.cfg.implements .sl m = true → d.toNat < s.cfg.ngpr →
      s.SecondOperand m.width u (.slR m u d) (.slI m u d) i b →
      let a := s.readGpr d m.width
      let res := BitVec.ofNat m.width (a.toNat * 2 ^ b.toNat)
      let changes := u = false ∧ res.getLsbD (m.width - 1) ≠ a.getLsbD (m.width - 1)
      (¬changes → exec i s = .next (s.writtenBack d res (ruleFlags false a b res))) ∧
      (changes → s.potent 0x200 = false →
        exec i s = .next ((s.noted 9).writtenBack d res { ruleFlags false a b res with overflow := true })) ∧
      (changes → s.potent 0x200 = true → exec i s = .next (s.skipped 9))) ∧
  (∀ (s : State) (m : MMode) (u : Bool) (d : RegNum) (i : Instr) (b : BitVec m.width),
      s.cfg.implements .sr m = true → d.toNat < s.cfg.ngpr →
      s.SecondOperand m.width u (.srR m u d) (.srI m u d) i b →
      let a := s.readGpr d m.width
      let res := BitVec.ofInt m.width (valueOf u a / 2 ^ b.toNat)
      exec i s = .next (s.writtenBack d res (ruleFlags false a b res)))

/-- RL and RR, register and immediate forms (R253, R254): every bit moves by the count modulo the width. For RR the
modulo rule is the spec's derivation (R254; log 29). -/
def Obligations.RotateResult : Prop :=
  ∀ (s : State) (right : Bool) (m : MMode) (d : RegNum) (i : Instr) (b : BitVec m.width),
    s.cfg.implements (if right then .rr else .rl) m = true → d.toNat < s.cfg.ngpr →
    s.SecondOperand m.width right (fun r => if right then .rrR m d r else .rlR m d r)
      (fun x => if right then .rrI m d x else .rlI m d x) i b →
    let a := s.readGpr d m.width
    ∃ res : BitVec m.width,
      (∀ k, k < m.width → if right then res.getLsbD k = a.getLsbD ((k + b.toNat) % m.width)
        else res.getLsbD ((k + b.toNat) % m.width) = a.getLsbD k) ∧
      exec i s = .next (s.writtenBack d res (ruleFlags false a b res))

/-- AND, NAND, OR, XOR, register and immediate forms (R270 to R274): AUXCODE and F of their words, the result bit by
bit, the operands compared unsigned, SIGN and ZERO of the result (R270, R44). That EST[31:16] stays is the spec's
decision D22 (R43; log 29). -/
def Obligations.LogicResult : Prop :=
  ∀ (s : State) (m : MMode) (u : Bool) (d : RegNum) (i : Instr) (b : BitVec m.width), d.toNat < s.cfg.ngpr →
    let a := s.readGpr d m.width
    let result := fun (f : Bool → Bool → Bool) => ∃ res : BitVec m.width,
      (∀ k, k < m.width → res.getLsbD k = f (a.getLsbD k) (b.getLsbD k)) ∧
      exec i s = .next (s.writtenBack d res (ruleFlags false a b res))
    let coded := fun (aux : BitVec 4) (j : Instr) => (encode j).extractLsb' 14 4 = aux ∧ (encode j).getLsbD 24 = false
    (∀ r x, coded 0b0111 (.andR m d r) ∧ coded 0b0111 (.andI m u d x) ∧ coded 0b1000 (.nandR m d r) ∧
      coded 0b1000 (.nandI m u d x) ∧ coded 0b1001 (.orR m d r) ∧ coded 0b1001 (.orI m u d x) ∧
      coded 0b1010 (.xorR m d r) ∧ coded 0b1010 (.xorI m u d x)) ∧
    (s.cfg.implements .and m = true → s.SecondOperand m.width u (.andR m d) (.andI m u d) i b →
      result fun x y => x && y) ∧
    (s.cfg.implements .nand m = true → s.SecondOperand m.width u (.nandR m d) (.nandI m u d) i b →
      result fun x y => !(x && y)) ∧
    (s.cfg.implements .or m = true → s.SecondOperand m.width u (.orR m d) (.orI m u d) i b →
      result fun x y => x || y) ∧
    (s.cfg.implements .xor m = true → s.SecondOperand m.width u (.xorR m d) (.xorI m u d) i b →
      result fun x y => x ^^ y)

/-- SB, RB, TB, RVB, register and immediate forms, with a bit number inside the mode and the ALU width (R290 to R294).  The
operation of RVB is the spec's derivation (R294), the extension of the immediate its decision D37 (log 29). -/
def Obligations.BitOperationsResult : Prop :=
  ∀ (s : State) (m : MMode) (d : RegNum) (i : Instr) (b : BitVec m.width), d.toNat < s.cfg.ngpr →
    b.toNat < m.width → b.toNat < s.cfg.aluw.width →
    let a := s.readGpr d m.width
    let result := fun (f : Nat → Bool) => ∃ res : BitVec m.width, (∀ k, k < m.width → res.getLsbD k = f k) ∧
      exec i s = .next (s.writtenBack d res (ruleFlags false a b res))
    (s.cfg.implements .sb m = true → s.SecondOperand m.width false (.sbR m d) (.sbI m d) i b →
      result fun k => if k = b.toNat then true else a.getLsbD k) ∧
    (s.cfg.implements .rb m = true → s.SecondOperand m.width true (.rbR m d) (.rbI m d) i b →
      result fun k => if k = b.toNat then false else a.getLsbD k) ∧
    (s.cfg.implements .tb m = true → s.SecondOperand m.width false (.tbR m d) (.tbI m d) i b →
      result fun k => if k = 0 then a.getLsbD b.toNat else false) ∧
    (s.cfg.implements .rvb m = true → s.SecondOperand m.width true (.rvbR m d) (.rvbI m d) i b →
      result fun k => if k ≤ b.toNat then a.getLsbD (b.toNat - k) else a.getLsbD k)

/-- A bit number beyond the mode or the ALU width raises INVALID OPERATION: impotent, DESTINATION keeps its value and
EST receives the comparison and INVALID OPERATION; potent, the instruction is abandoned (R290). That DESTINATION keeps
its value, and the flags, are the spec's decision D23 (log 29). EXI on an impotent exception is the spec's decision D10
(log 29). -/
def Obligations.InvalidBitNumber : Prop :=
  ∀ (s : State) (m : MMode) (d : RegNum) (i : Instr) (b : BitVec m.width), d.toNat < s.cfg.ngpr →
    m.width ≤ b.toNat ∨ s.cfg.aluw.width ≤ b.toNat →
    (s.cfg.implements .sb m = true ∧ s.SecondOperand m.width false (.sbR m d) (.sbI m d) i b) ∨
    (s.cfg.implements .rb m = true ∧ s.SecondOperand m.width true (.rbR m d) (.rbI m d) i b) ∨
    (s.cfg.implements .tb m = true ∧ s.SecondOperand m.width false (.tbR m d) (.tbI m d) i b) ∨
    (s.cfg.implements .rvb m = true ∧ s.SecondOperand m.width true (.rvbR m d) (.rvbI m d) i b) →
    let a := s.readGpr d m.width
    (s.potent 0x80 = false →
      exec i s = .next (((s.noted 7).setFlags
        { invalidOperation := true, equal := decide (a.toNat = b.toNat), greaterThan := decide (b.toNat < a.toNat),
          lessThan := decide (a.toNat < b.toNat) }).advance)) ∧
    (s.potent 0x80 = true → exec i s = .next (s.skipped 7))

/-! ## Floating point -/

/-- The two- and three-operand FP instructions: the exceptions of R314 are noted; where one of them is potent the
instruction is abandoned, else the result goes to `F(DESTINATION)` and EST receives the flags of R315; FSUB and FMSU add
the negated operand; a NaN result is invalid (R316 to R320, R353, R354; under an assigned rounding code FpSpecialResults
says that only an invalid operation has one, the free pattern of any other code is log 11). What the operations compute
is said by FpExactArithmetic, FpSpecialResults, FpRounding and FpRemainderRoot, the bits of EST by StatusFlagBits.
Formats and flags rest on the spec's decisions D18, D23 and D45 (log 27, 29). EXI on an impotent exception is the spec's
decision D10 (log 29). -/
def Obligations.FpBinaryTernaryResult : Prop :=
  ∀ (s : State) (d r r2 : RegNum), s.fpsExist [d, r, r2] = true →
    let f := s.cfg.fpFmt
    let x := s.fpValue d
    let y := s.fpValue r
    let z := s.fpValue r2
    let listed := [Exc.fpInvalidOperation, .fpDenormalizedOperand, .fpOverflow, .fpUnderflow, .fpInexactResult]
    let two := FpVal.isDenormal f x || FpVal.isDenormal f y
    let done := fun (i : Instr) (mn : Mnemonic) (listed : List Exc) (denormal : Bool) (c : FpCalc) =>
      s.cfg.implementsFp mn = true →
        let es := s.fpRaised listed denormal c
        exec i s = .next (s.fpOutcome es ((((s.notedAll es).writeFp d (BitVec.ofNat s.cfg.fpw c.bits)).setFlags
          (fpFlags (fpCompareFlags x y) (fpResultFlags f c.bits) es c.inexact)).advance))
    let nan := FpFmt.nanInvalid f
    done (.fadd d r) .fadd listed two (nan (s.fpAdd f x y)) ∧
    done (.fsub d r) .fsub listed two (nan (s.fpAdd f x (FpVal.neg y))) ∧
    done (.fmul d r) .fmul listed two (nan (s.fpMul f x y)) ∧
    done (.fdiv d r) .fdiv (.fpDivisionByZero :: listed) two (nan (s.fpDiv f x y)) ∧
    done (.frem d r) .frem [.fpInvalidOperation, .fpDenormalizedOperand] two (fpRem f x y) ∧
    done (.fmad d r r2) .fmad listed (two || FpVal.isDenormal f z) (nan (s.fpFma f x y z)) ∧
    done (.fmsu d r r2) .fmsu listed (two || FpVal.isDenormal f z) (nan (s.fpFma f x y (FpVal.neg z)))

/-- The one-operand FP instructions with a result in the widest format, and FI2F and FEXT: the exceptions noted;
abandoned where one of them is potent, else the result and the flags, no comparison flag (R314, R315, R322, R325, R327,
R328). What they compute is said by FpRemainderRoot, FpIntegerValues and FpFormatValues. Formats and flags rest on the
spec's decisions D18, D23 and D48 (log 27, 29), the file of the operands of FI2F and FEXT on the model's reading (log
18), which formats FEXT takes on an extended FPU on log 40. EXI on an impotent exception is the spec's decision D10 (log
29). -/
def Obligations.FpUnaryResult : Prop :=
  ∀ (s : State) (m : MMode) (u : Bool) (d : RegNum), s.fpsExist [d] = true →
    let f := s.cfg.fpFmt
    let x := s.fpValue d
    let narrow := FpFmt.unpack m.fpFmt (s.readFpPart d m.width).toNat
    let done := fun (i : Instr) (listed : List Exc) (denormal : Bool) (c : FpCalc) =>
      let es := s.fpRaised listed denormal c
      exec i s = .next (s.fpOutcome es ((((s.notedAll es).writeFp d (BitVec.ofNat s.cfg.fpw c.bits)).setFlags
        (fpFlags {} (fpResultFlags f c.bits) es c.inexact)).advance))
    (s.cfg.implementsFp .fsqr = true → done (.fsqr d)
      [.fpInvalidOperation, .fpDenormalizedOperand, .fpUnderflow, .fpInexactResult] (FpVal.isDenormal f x)
      (s.fpSqrt f x)) ∧
    (s.cfg.implementsFp .frnd = true → done (.frnd d)
      [.fpInvalidOperation, .fpDenormalizedOperand, .fpOverflow, .fpInexactResult] (FpVal.isDenormal f x)
      (s.fpRoundInt f x)) ∧
    (s.cfg.implementsConvert .fi2f m = true → done (.fi2f m u d) [.fpOverflow, .fpInexactResult] false
      (s.fpOfInt f (valueOf u (s.readFpPart d m.width)))) ∧
    (s.cfg.implementsFormat .fext m = true → done (.fext m d) [.fpInvalidOperation, .fpDenormalizedOperand]
      (FpVal.isDenormal m.fpFmt narrow) (fpExtend m.fpFmt f narrow))

/-- FABS clears the sign bit and FNEG inverts it, on every operand that is no signaling NaN; a signaling NaN gives the
quiet NaN of R312 (R323, R324, R330); abandoned where an exception they raise is potent. The NaN, the format and the
flags are the spec's decisions D18, D48 and D23 (log 27, 29). EXI on an impotent exception is the spec's decision D10
(log 29). -/
def Obligations.FpSignOperationsResult : Prop :=
  ∀ (s : State) (neg : Bool) (d : RegNum), s.fpsExist [d] = true → 1 ≤ s.cfg.fpFmt.fracBits →
    s.cfg.implementsFp (if neg then .fneg else .fabs) = true →
    let f := s.cfg.fpFmt
    let x := s.fpValue d
    let i := if neg then Instr.fneg d else .fabs d
    let den := if FpVal.isDenormal f x then [Exc.fpDenormalizedOperand] else []
    let sign := (s.readFp d).getLsbD (s.cfg.fpw - 1)
    (FpVal.isSignaling x = false →
      ∃ res : BitVec s.cfg.fpw,
        (∀ k, k < s.cfg.fpw → res.getLsbD k = if k = s.cfg.fpw - 1 then neg && !sign else (s.readFp d).getLsbD k) ∧
        exec i s = .next (s.fpOutcome den ((((s.notedAll den).writeFp d res).setFlags
          (fpFlags {} (fpResultFlags f res.toNat) den false)).advance))) ∧
    (FpVal.isSignaling x = true →
      exec i s = .next (s.fpOutcome [.fpInvalidOperation] ((((s.noted 10).writeFp d
        (BitVec.ofNat s.cfg.fpw (FpFmt.quietNan f))).setFlags { invalidOperation := true, nan := true }).advance)))

/-- FCMP, abandoned where an exception it raises is potent: the flags go to EST and, as a 16-bit word, to DESTINATION
(R321); the comparison of two finite values is that of the numbers they stand for, so the two zeros are equal (R315).
The format and the flags are the spec's decisions D18 and D23 (log 27, 29), the file the model's reading (log 18). EXI
on an impotent exception is the spec's decision D10 (log 29). -/
def Obligations.FpCompareResult : Prop :=
  ∀ (s : State) (d r : RegNum), s.fpsExist [d, r] = true → s.cfg.implementsFp .fcmp = true →
    let f := s.cfg.fpFmt
    let x := s.fpValue d
    let y := s.fpValue r
    let denormal := FpVal.isDenormal f x || FpVal.isDenormal f y
    let signaling := FpVal.isSignaling x || FpVal.isSignaling y
    let nan := FpVal.isNan x || FpVal.isNan y
    let es := (if denormal then [Exc.fpDenormalizedOperand] else []) ++ if signaling then [.fpInvalidOperation] else []
    let flags : EstFlags :=
      { invalidOperation := signaling, unordered := nan, signalingNan := signaling, nan := nan, denormalized := denormal,
        equal := decide (FpVal.compare x y = some .eq), greaterThan := decide (FpVal.compare x y = some .gt),
        lessThan := decide (FpVal.compare x y = some .lt) }
    exec (.fcmp d r) s =
      .next (s.fpOutcome es ((((s.notedAll es).writeFpPart d flags.bits).setFlags flags).advance)) ∧
    (FpVal.isFinite x = true → FpVal.isFinite y = true →
      (FpVal.compare x y = some .lt ↔ FpVal.rat x < FpVal.rat y) ∧
      (FpVal.compare x y = some .eq ↔ FpVal.rat x = FpVal.rat y) ∧
      (FpVal.compare x y = some .gt ↔ FpVal.rat y < FpVal.rat x))

/-- FF2I and FSQZ, abandoned where an exception they raise is potent (R326, R329): FF2I writes the integer where it is
in the range of the mode and is skipped where it is not; FSQZ writes the value in the narrow format. Out of range,
formats and flags are the spec's decisions D47, D18 and D23 (log 27, 29), the file the model's reading (log 18), which
formats FSQZ takes on an extended FPU log 40. EXI on an impotent exception is the spec's decision D10 (log 29). -/
def Obligations.FpNarrowingResult : Prop :=
  ∀ (s : State) (m : MMode) (u : Bool) (d : RegNum), s.fpsExist [d] = true →
    let f := s.cfg.fpFmt
    let x := s.fpValue d
    let denormal := FpVal.isDenormal f x
    let den := if denormal then [Exc.fpDenormalizedOperand] else []
    let inside := fun n : Int => if u then 0 ≤ n ∧ n < 2 ^ m.width else -2 ^ (m.width - 1) ≤ n ∧ n < 2 ^ (m.width - 1)
    (s.cfg.implementsConvert .ff2i m = true →
      (∀ n exact, s.fpToInt x = some (n, exact) → inside n →
        let es := den ++ if exact then [] else [.fpInexactResult]
        let res := BitVec.ofInt m.width n
        exec (.ff2i m u d) s = .next (s.fpOutcome es ((((s.notedAll es).writeFpPart d res).setFlags
          { sign := res.getLsbD (m.width - 1), zero := decide (res.toNat = 0), inexact := !exact,
            denormalized := denormal }).advance))) ∧
      (∀ n exact, s.fpToInt x = some (n, exact) → ¬inside n →
        let es := den ++ [.fpInvalidOperation, .fpOverflow]
        exec (.ff2i m u d) s = .next (s.fpOutcome es (((s.notedAll es).setFlags
          { invalidOperation := true, overflow := true, denormalized := denormal }).advance))) ∧
      (FpVal.isFinite x = false →
        let es := den ++ [.fpInvalidOperation]
        exec (.ff2i m u d) s = .next (s.fpOutcome es (((s.notedAll es).setFlags
          { invalidOperation := true, denormalized := denormal }).advance)))) ∧
    (s.cfg.implementsFormat .fsqz m = true →
      let c := s.fpSqueeze f m.fpFmt x
      let es := s.fpRaised [.fpInvalidOperation, .fpDenormalizedOperand, .fpOverflow, .fpUnderflow, .fpInexactResult]
        denormal c
      exec (.fsqz m d) s = .next (s.fpOutcome es ((((s.notedAll es).writeFpPart d (BitVec.ofNat m.width c.bits)).setFlags
        (fpFlags {} (fpResultFlags m.fpFmt c.bits) es c.inexact)).advance)))

/-- On finite operands the FP operations round one exact number once: the sum, the product, the quotient, the product plus
the third operand (R316, R318, R319, R353).  What rounding delivers in an assigned mode (R314, R470, R471): the pattern of
FpRounding with its sign, which stands for its number, inexact where it is not the exact one, tiny where the exact number
is below the smallest normal one; beyond the largest finite number an overflow, inexact, with infinity or the largest
finite number by the mode.  One rounding of the exact value is the spec's reading of IEEE 754-2008, formats and
tininess are its decisions D18 and D45, the value of an overflow its general knowledge (log 13, 27, 29). -/
def Obligations.FpExactArithmetic : Prop :=
  (∀ (s : State) (f : FpFmt) (x y z : FpVal), FpVal.isFinite x = true → FpVal.isFinite y = true →
    FpVal.isFinite z = true →
    let roundsOnce := fun (c : FpCalc) (exact : Rat) => ∃ (sign : Bool) (n d : Nat) (e : Int), 0 < n ∧ 0 < d ∧
      (if sign then -1 else 1) * ((n : Rat) / d) * 2 ^ e = exact ∧ c = s.rounded f sign n d e
    (FpVal.rat x + FpVal.rat y ≠ 0 → roundsOnce (s.fpAdd f x y) (FpVal.rat x + FpVal.rat y)) ∧
    (FpVal.rat x * FpVal.rat y ≠ 0 → roundsOnce (s.fpMul f x y) (FpVal.rat x * FpVal.rat y)) ∧
    (FpVal.rat y ≠ 0 → FpVal.rat x / FpVal.rat y ≠ 0 → roundsOnce (s.fpDiv f x y) (FpVal.rat x / FpVal.rat y)) ∧
    (FpVal.rat x * FpVal.rat y + FpVal.rat z ≠ 0 →
      roundsOnce (s.fpFma f x y z) (FpVal.rat x * FpVal.rat y + FpVal.rat z))) ∧
  (∀ (s : State) (f : FpFmt) (mode : Rounding) (sign : Bool) (n d : Nat) (e : Int), s.rounding = some mode →
    1 ≤ f.fracBits → 0 < n → 0 < d →
    let r := FpFmt.roundMag f mode sign n d e
    let c := s.rounded f sign n d e
    let toInfinity := match mode with
      | .toZero => False
      | .positive => sign = false
      | .negative => sign = true
      | _ => True
    c.invalid = false ∧ c.divZero = false ∧
    (r.1 < FpFmt.infBits f → c.overflow = false ∧ c.bits = FpFmt.signed f sign r.1 ∧ (c.inexact = true ↔ r.2 = false) ∧
      (c.tiny = true ↔ (n : Rat) / d * 2 ^ e < 2 ^ (1 - (FpFmt.bias f : Int)))) ∧
    (FpFmt.infBits f ≤ r.1 → c.overflow = true ∧ c.inexact = true ∧ c.tiny = false ∧
      (toInfinity → c.bits = FpFmt.signed f sign (FpFmt.infBits f)) ∧
      (¬toInfinity → c.bits = FpFmt.signed f sign (FpFmt.infBits f - 1)))) ∧
  (∀ (f : FpFmt) (sign : Bool) (bits : Nat), bits < FpFmt.infBits f →
    let x := FpFmt.unpack f (FpFmt.signed f sign bits)
    FpVal.isFinite x = true ∧ FpVal.rat x = (if sign then -1 else 1) * FpFmt.magnitude f bits)

/-- FEXT, FSQZ and FI2F on the values of their operands (R327 to R330): extending gives the same number, infinity or NaN
with its sign; squeezing and the conversion of an integer round the exact number once; zeros and infinities keep their
sign, the integer 0 gives +0; a NaN keeps its sign and its top fraction bits.  Formats and NaNs are the spec's decisions
D18 and D48 (log 27, 29). -/
def Obligations.FpFormatValues : Prop :=
  ∀ (s : State) (src dst : FpFmt), 1 ≤ src.fracBits → 1 ≤ dst.fracBits → 1 ≤ dst.expBits →
    let roundsOnce := fun (c : FpCalc) (exact : Rat) => ∃ (sign : Bool) (n : Nat) (e : Int), 0 < n ∧
      (if sign then -1 else 1) * (n : Rat) * 2 ^ e = exact ∧ c = s.rounded dst sign n 1 e
    (∀ bits, FpFmt.fits src dst = true →
      let x := FpFmt.unpack src bits
      let c := fpExtend src dst x
      let y := FpFmt.unpack dst c.bits
      c.inexact = false ∧ c.overflow = false ∧ c.invalid = FpVal.isSignaling x ∧
      (FpVal.isFinite x = true → FpVal.isFinite y = true ∧ FpVal.rat y = FpVal.rat x ∧
        FpFmt.signBit dst c.bits = FpFmt.signBit src bits) ∧
      (∀ a, x = .inf a → y = .inf a) ∧
      (∀ a frac, x = .nan a true frac → y = .nan a true (frac * 2 ^ (dst.fracBits - src.fracBits))) ∧
      (FpVal.isSignaling x = true → c.bits = FpFmt.quietNan dst)) ∧
    (∀ bits, dst.fracBits ≤ src.fracBits →
      let x := FpFmt.unpack src bits
      let c := s.fpSqueeze src dst x
      let y := FpFmt.unpack dst c.bits
      (FpVal.isFinite x = true → FpVal.rat x ≠ 0 → roundsOnce c (FpVal.rat x)) ∧
      (∀ a e, x = .fin a 0 e → c = FpFmt.zeroResult dst a) ∧
      (∀ a, x = .inf a → c = FpFmt.infResult dst a) ∧
      (∀ a frac, x = .nan a true frac → c.invalid = false ∧ y = .nan a true (frac / 2 ^ (src.fracBits - dst.fracBits))) ∧
      (FpVal.isSignaling x = true → c.invalid = true ∧ c.bits = FpFmt.quietNan dst)) ∧
    (∀ i : Int, (i ≠ 0 → roundsOnce (s.fpOfInt dst i) i) ∧ (i = 0 → s.fpOfInt dst i = FpFmt.zeroResult dst false))

/-- FRND and FF2I on finite operands in an assigned mode (R325, R326): the integer the mode rounds the operand to, inexact
where the operand is none; FRND delivers it in the format with the operand's sign, or overflows where it is beyond the
largest finite number.  The formats and the meaning of the modes are the spec's decisions D18 and D43 (log 27, 29), the sign
of a zero is log 13. -/
def Obligations.FpIntegerValues : Prop :=
  ∀ (s : State) (f : FpFmt) (mode : Rounding) (bits : Nat), s.rounding = some mode → 1 ≤ f.fracBits →
    let x := FpFmt.unpack f bits
    let v := |FpVal.rat x|
    let sign := FpFmt.signBit f bits
    let lo := v.floor.toNat
    let up := Rounding.goesUp mode sign (decide (lo % 2 = 1)) lo v (lo + 1)
    let largest := FpFmt.magnitude f (FpFmt.infBits f - 1)
    ∀ n : Nat, FpVal.isFinite x = true → (v = lo → n = lo) → (v ≠ lo → up → n = lo + 1) → (v ≠ lo → ¬up → n = lo) →
      s.fpToInt x = some (if sign then -(n : Int) else n, decide (v = lo)) ∧
      let c := s.fpRoundInt f x
      let y := FpFmt.unpack f c.bits
      c.invalid = false ∧ c.divZero = false ∧ c.tiny = false ∧
      ((n : Rat) ≤ largest → FpVal.isFinite y = true ∧ |FpVal.rat y| = n ∧ FpFmt.signBit f c.bits = sign ∧
        c.overflow = false ∧ (c.inexact = true ↔ v ≠ lo)) ∧
      (largest < (n : Rat) → c.overflow = true ∧ c.inexact = true)

/-- FREM and FSQR (R320, R322): the remainder `x - y*n` for the integer `n` nearest to `x/y`, a tie to even, exact, a zero
with the sign of `x`; the square root rounded once in an assigned mode, exact where the root is a number of the format; the
square root of a zero is that zero.  The remainder is the spec's decision D46, the formats and the modes are D18 and D43
(log 27, 29); the sign of a zero remainder and of the root of a zero is the standard's, from general knowledge (R322;
log 13). -/
def Obligations.FpRemainderRoot : Prop :=
  ∀ (s : State) (f : FpFmt) (a b : Nat), 1 ≤ f.fracBits → 1 ≤ f.expBits →
    let x := FpFmt.unpack f a
    let y := FpFmt.unpack f b
    (FpVal.isFinite x = true → FpVal.isFinite y = true → FpVal.rat y ≠ 0 →
      ∃ n : Int,
        let r := FpVal.rat x - FpVal.rat y * n
        let c := fpRem f x y
        2 * |r| ≤ |FpVal.rat y| ∧ (2 * |r| = |FpVal.rat y| → n % 2 = 0) ∧
        FpVal.isFinite (FpFmt.unpack f c.bits) = true ∧ FpVal.rat (FpFmt.unpack f c.bits) = r ∧
        (r = 0 → FpFmt.signBit f c.bits = FpFmt.signBit f a) ∧ c.invalid = false) ∧
    (FpVal.isFinite x = true → ∀ t, y = .inf t → FpVal.rat (FpFmt.unpack f (fpRem f x y).bits) = FpVal.rat x ∧
      FpVal.isFinite (FpFmt.unpack f (fpRem f x y).bits) = true ∧ (fpRem f x y).invalid = false) ∧
    (∀ mode, s.rounding = some mode → FpVal.isFinite x = true → 0 < FpVal.rat x →
      let c := s.fpSqrt f x
      ∃ lo : Nat,
        let low := FpFmt.magnitude f lo
        let high := FpFmt.magnitude f (lo + 1)
        let up := match mode with
          | .away | .positive => True
          | .negative | .toZero => False
          | _ => ((low + high) / 2) ^ 2 < FpVal.rat x
        low ^ 2 ≤ FpVal.rat x ∧ FpVal.rat x < high ^ 2 ∧ c.invalid = false ∧ c.overflow = false ∧
        (low ^ 2 = FpVal.rat x → c.bits = lo ∧ c.inexact = false) ∧
        (low ^ 2 ≠ FpVal.rat x → up → c.bits = lo + 1 ∧ c.inexact = true) ∧
        (low ^ 2 ≠ FpVal.rat x → ¬up → c.bits = lo ∧ c.inexact = true)) ∧
    (FpVal.isFinite x = true → FpVal.rat x = 0 → s.fpSqrt f x = FpFmt.zeroResult f (FpFmt.signBit f a))

/-- When an FP operation is invalid (R316, R318, R319, R320, R322, R353), and what the operations deliver that round
nothing: the quiet NaN of an invalid one (R312, R330), infinities, exact zeros, a division by zero (R314), a quiet NaN that
passes through FSQR and FRND (R330).  FSUB and FMSU are the sums with the negated operand.  The cases and signs the manual
does not print are the spec's, from general knowledge, or the standard's (log 13, 29); the sign of an exact zero sum of
operands of opposite signs is the spec's under Nearest even and nothing is said of it else (log 12); the quiet NaN is
decision D18, the NaN that passes D48 (log 27, 29).  A NaN result of FADD, FSUB, FMUL, FDIV, FMAD or FMSU is an invalid
operation (R316 to R319, R353, R354); in an assigned mode no other operation has one, what a free pattern raises is log
11. -/
def Obligations.FpSpecialResults : Prop :=
  ∀ (s : State) (f : FpFmt) (x y z : FpVal),
    let finite := fun v : FpVal => FpVal.isFinite v = true
    let zero := fun v : FpVal => FpVal.isFinite v = true ∧ FpVal.rat v = 0
    let nonzero := fun v : FpVal => FpVal.isFinite v = true ∧ FpVal.rat v ≠ 0
    let nan := fun v : FpVal => FpVal.isNan v = true
    let inf := fun v : FpVal => ∃ a, v = .inf a
    let sign := fun v : FpVal => match v with
      | .nan a _ _ => a
      | .inf a => a
      | .fin a _ _ => a
    let infinity := fun a : Bool => ({ bits := FpFmt.signed f a (FpFmt.infBits f) } : FpCalc)
    let zeroOf := fun a : Bool => ({ bits := FpFmt.signed f a 0 } : FpCalc)
    let invalid := fun (c : FpCalc) (when : Prop) => (c.invalid = true ↔ when) ∧
      (when → c = { bits := FpFmt.infBits f + 2 ^ (f.fracBits - 1), invalid := true })
    let opposite := fun (a : Bool) (v : FpVal) => v = .inf (!a)
    let infProduct := (inf x ∧ (inf y ∨ nonzero y)) ∨ (nonzero x ∧ inf y)
    let badProduct := (inf x ∧ zero y) ∨ (zero x ∧ inf y)
    let negative := sign x != sign y
    let sum := fun (c : FpCalc) (pInf pFinite : Prop) (a : Bool) (p : Rat) (q : FpVal) =>
      (pInf → finite q ∨ q = .inf a → c = infinity a) ∧
      (pFinite → ∀ b, q = .inf b → c = infinity b) ∧
      (pFinite → finite q → p + FpVal.rat q = 0 → ∃ b, c = zeroOf b ∧ (a = sign q → b = a) ∧
        (a ≠ sign q → s.rounding = some .nearestEven → b = false))
    invalid (s.fpAdd f x y) (nan x ∨ nan y ∨ (inf x ∧ opposite (sign x) y)) ∧
    sum (s.fpAdd f x y) (inf x) (finite x) (sign x) (FpVal.rat x) y ∧
    invalid (s.fpMul f x y) (nan x ∨ nan y ∨ badProduct) ∧
    (infProduct → s.fpMul f x y = infinity negative) ∧
    (finite x → finite y → FpVal.rat x * FpVal.rat y = 0 → s.fpMul f x y = zeroOf negative) ∧
    invalid (s.fpFma f x y z) (nan x ∨ nan y ∨ nan z ∨ badProduct ∨ (infProduct ∧ opposite negative z)) ∧
    sum (s.fpFma f x y z) infProduct (finite x ∧ finite y) negative (FpVal.rat x * FpVal.rat y) z ∧
    invalid (s.fpDiv f x y) (nan x ∨ nan y ∨ (zero x ∧ zero y) ∨ (inf x ∧ inf y)) ∧
    ((s.fpDiv f x y).divZero = true ↔ nonzero x ∧ zero y) ∧
    (nonzero x → zero y → s.fpDiv f x y = { infinity negative with divZero := true }) ∧
    (inf x → finite y → s.fpDiv f x y = infinity negative) ∧
    (finite x → inf y → s.fpDiv f x y = zeroOf negative) ∧
    (zero x → nonzero y → s.fpDiv f x y = zeroOf negative) ∧
    invalid (fpRem f x y) (nan x ∨ nan y ∨ inf x ∨ zero y) ∧
    invalid (s.fpSqrt f x) (FpVal.isSignaling x = true ∨ x = .inf true ∨ (finite x ∧ FpVal.rat x < 0)) ∧
    (x = .inf false → s.fpSqrt f x = infinity false) ∧
    invalid (s.fpRoundInt f x) (FpVal.isSignaling x = true) ∧
    (∀ a, x = .inf a → s.fpRoundInt f x = infinity a) ∧
    (∀ a frac, x = .nan a true frac → ∀ c ∈ [s.fpSqrt f x, s.fpRoundInt f x],
      c = { bits := FpFmt.signed f a (FpFmt.infBits f + frac) }) ∧
    (1 ≤ f.expBits → 1 ≤ f.fracBits →
      (∀ c : FpCalc,
        let isNan := c.bits / 2 ^ f.fracBits % 2 ^ f.expBits = 2 ^ f.expBits - 1 ∧ c.bits % 2 ^ f.fracBits ≠ 0
        (isNan → FpFmt.nanInvalid f c = { bits := FpFmt.infBits f + 2 ^ (f.fracBits - 1), invalid := true }) ∧
        (¬isNan → FpFmt.nanInvalid f c = c)) ∧
      (∀ mode, s.rounding = some mode → ∀ c ∈ [s.fpAdd f x y, s.fpMul f x y, s.fpDiv f x y, s.fpFma f x y z],
        FpFmt.nanInvalid f c = c))

/-- EST[15:0], bit by bit.  An update of the flags puts each at its place (R41) and keeps EST[31:16] (the spec's decision
D22; log 29).  The flags of an FP instruction (R315): SIGN, ZERO, DENORMALIZED, INFINITY, SIGNALING NAN and NAN from the
pattern it delivers; INVALID OPERATION, DIVISION BY ZERO, OVERFLOW, UNDERFLOW, INEXACT and DENORMALIZED from the exceptions
it raises; EQUAL, GREATER THAN and LESS THAN from the operands, the infinities at the ends, the two zeros equal, none with
a NaN.  The rows of the table the manual does not print are decision D23, the formats D18 (log 27, 29). -/
def Obligations.StatusFlagBits : Prop :=
  (∀ (s : State) (f : EstFlags),
    let est := (s.setFlags f).est
    s.setFlags f = { s with est := est } ∧ (∀ k, 16 ≤ k → k < 32 → est.getLsbD k = s.est.getLsbD k) ∧
    est.getLsbD 0 = f.invalidOperation ∧ est.getLsbD 1 = f.unimplementedOperation ∧ est.getLsbD 2 = f.divisionByZero ∧
    est.getLsbD 3 = f.overflow ∧ est.getLsbD 4 = f.underflow ∧ est.getLsbD 5 = f.equal ∧
    est.getLsbD 6 = f.greaterThan ∧ est.getLsbD 7 = f.lessThan ∧ est.getLsbD 8 = f.inexact ∧
    est.getLsbD 9 = f.unordered ∧ est.getLsbD 10 = f.sign ∧ est.getLsbD 11 = f.zero ∧
    est.getLsbD 12 = f.denormalized ∧ est.getLsbD 13 = f.infinity ∧ est.getLsbD 14 = f.signalingNan ∧
    est.getLsbD 15 = f.nan) ∧
  (∀ (s : State) (f : FpFmt) (bits : Nat) (cmp : EstFlags) (es : List Exc) (inexact : Bool),
    1 ≤ f.expBits → 1 ≤ f.fracBits →
    let est := (s.setFlags (fpFlags cmp (fpResultFlags f bits) es inexact)).est
    let flag := fun k => est.getLsbD k = true
    let e := bits / 2 ^ f.fracBits % 2 ^ f.expBits
    let frac := bits % 2 ^ f.fracBits
    let nan := e = 2 ^ f.expBits - 1 ∧ frac ≠ 0
    (flag 0 ↔ .fpInvalidOperation ∈ es) ∧ ¬flag 1 ∧ (flag 2 ↔ .fpDivisionByZero ∈ es) ∧ (flag 3 ↔ .fpOverflow ∈ es) ∧
    (flag 4 ↔ .fpUnderflow ∈ es ∧ inexact = true) ∧ (flag 5 ↔ cmp.equal = true) ∧ (flag 6 ↔ cmp.greaterThan = true) ∧
    (flag 7 ↔ cmp.lessThan = true) ∧ (flag 8 ↔ .fpInexactResult ∈ es) ∧ ¬flag 9 ∧
    (flag 10 ↔ bits.testBit (f.expBits + f.fracBits) = true ∧ ¬nan) ∧ (flag 11 ↔ e = 0 ∧ frac = 0) ∧
    (flag 12 ↔ (e = 0 ∧ frac ≠ 0) ∨ .fpDenormalizedOperand ∈ es) ∧ (flag 13 ↔ e = 2 ^ f.expBits - 1 ∧ frac = 0) ∧
    (flag 14 ↔ nan ∧ frac.testBit (f.fracBits - 1) = false) ∧ (flag 15 ↔ nan)) ∧
  ∀ x y : FpVal,
    let finite := fun v : FpVal => FpVal.isFinite v = true
    let below := fun v w : FpVal => (finite v ∧ finite w ∧ FpVal.rat v < FpVal.rat w) ∨
      (v = .inf true ∧ FpVal.isNan w = false ∧ w ≠ .inf true) ∨ (w = .inf false ∧ FpVal.isNan v = false ∧ v ≠ .inf false)
    ((fpCompareFlags x y).equal = true ↔
      (finite x ∧ finite y ∧ FpVal.rat x = FpVal.rat y) ∨ ∃ a, x = .inf a ∧ y = .inf a) ∧
    ((fpCompareFlags x y).greaterThan = true ↔ below y x) ∧ ((fpCompareFlags x y).lessThan = true ↔ below x y)

/-- Rounding is right in every assigned mode (R312, R313): the value `v` lies between the neighbouring patterns `lo`
and `lo + 1`; it is delivered exactly where it is `lo`, and otherwise goes to the neighbour the mode names. The
meaning of the modes is the spec's decision D43, the formats its decision D18 (log 27, 29). -/
def Obligations.FpRounding : Prop :=
  ∀ (f : FpFmt) (mode : Rounding) (sign : Bool) (n d : Nat) (x : Int), 1 ≤ f.fracBits → 0 < n → 0 < d →
    let v : Rat := (n : Rat) / d * 2 ^ x
    let lo := (FpFmt.roundMag f .toZero sign n d x).1
    let r := FpFmt.roundMag f mode sign n d x
    let up := Rounding.goesUp mode sign (decide (lo % 2 = 1)) (FpFmt.magnitude f lo) v (FpFmt.magnitude f (lo + 1))
    FpFmt.magnitude f lo ≤ v ∧ v < FpFmt.magnitude f (lo + 1) ∧
    (r.2 = true ↔ v = FpFmt.magnitude f lo) ∧
    (v = FpFmt.magnitude f lo → r.1 = lo) ∧
    (v ≠ FpFmt.magnitude f lo → up → r.1 = lo + 1) ∧
    (v ≠ FpFmt.magnitude f lo → ¬up → r.1 = lo)

/-! ## Program transfer, returns, WAIT -/

/-- Program transfer, register and offset forms (R370 to R384).  JMP: IC is the signed value, or IC plus it, modulo
`2^ICW`; P = 1 writes CRP with IC + 1.  The twelve branches: the condition on the low `w` bits of ARGUMENT, the transfer
where it holds, IC + 1 where it does not.  Nothing else changes.  How LOCATION is read and the width of IC are the spec's
decisions D42 and D13 (log 29). -/
def Obligations.ProgramTransfer : Prop :=
  (∀ (s : State) (a p : Bool) (loc : RegNum) (off : BitVec 20), s.cfg.has .jmp = true → s.cfg.icw ≤ 64 →
      let goes := fun (i : Instr) (value : Int) =>
        exec i s = .next { s with
          ic := BitVec.ofNat 64 (((if a then value else (s.ic.toNat : Int) + value) % 2 ^ s.cfg.icw).toNat)
          crp := if p then BitVec.ofNat 64 ((s.ic.toNat + 1) % 2 ^ s.cfg.icw) else s.crp }
      goes (.jmpO a p off) off.toInt ∧
      (loc.toNat < s.cfg.ngpr → goes (.jmpR a p loc) (s.readGpr loc s.cfg.natMode.width).toInt)) ∧
  (∀ (s : State) (c : Cond) (m : MMode) (a p : Bool) (arg loc : RegNum) (off : BitVec 14),
      s.cfg.implements (Cond.mnemonic c) m = true → arg.toNat < s.cfg.ngpr → s.cfg.icw ≤ 64 →
      let taken := Cond.Met c (s.readGpr arg m.width)
      let goes := fun (i : Instr) (value : Int) =>
        (taken → exec i s = .next { s with
          ic := BitVec.ofNat 64 (((if a then value else (s.ic.toNat : Int) + value) % 2 ^ s.cfg.icw).toNat)
          crp := if p then BitVec.ofNat 64 ((s.ic.toNat + 1) % 2 ^ s.cfg.icw) else s.crp }) ∧
        (¬taken → exec i s = .next { s with ic := BitVec.ofNat 64 ((s.ic.toNat + 1) % 2 ^ s.cfg.icw) })
      goes (.branchO c m a p arg off) off.toInt ∧
      (loc.toNat < s.cfg.ngpr → goes (.branchR c m a p arg loc) (s.readGpr loc s.cfg.natMode.width).toInt))

/-- The conditions of the branches and their AUXCODEs (R373 to R384), in both forms: where the condition on ARGUMENT is
met, the branch does what JMP with the same O, A, P and value does; where it is not, IC goes to the next instruction and nothing else
changes. The implementation has JMP and the branch in the mode, and the registers exist. -/
def Obligations.BranchConditions : Prop :=
  ∀ (s : State) (c : Cond) (m : MMode) (a p : Bool) (arg loc : RegNum) (off : BitVec 14),
    let code : BitVec 4 := match c with
      | .z => 0b0001 | .nz => 0b0010 | .m => 0b0011 | .mz => 0b0100 | .nm => 0b0101 | .nmo => 0b0110
      | .l => 0b0111 | .lz => 0b1000 | .nl => 0b1001 | .nlo => 0b1010 | .o => 0b1011 | .no => 0b1100
    let taken := Cond.Met c (s.readGpr arg m.width)
    let goes := fun (i jump : Instr) => (encode i).extractLsb' 14 4 = code ∧
      (s.cfg.implements (Cond.mnemonic c) m = true → s.cfg.has .jmp = true → arg.toNat < s.cfg.ngpr →
        loc.toNat < s.cfg.ngpr →
        (taken → exec i s = exec jump s) ∧
        (¬taken → ∃ t, exec i s = .next t ∧ t = { s with ic := t.ic } ∧
          (s.ic.toNat + 1 < 2 ^ s.cfg.icw → t.ic = s.ic + 1)))
    goes (.branchO c m a p arg off) (.jmpO a p (off.signExtend 20)) ∧ goes (.branchR c m a p arg loc) (.jmpR a p loc)

/-- The four returns (R400 to R404).  RET and RETI: IC from the pointer, or the pointer minus one for P = 1; RETI restores
SCR[3] where an interrupt was entered, in either mode.  RETE and RETN in system mode, their three forms: without argument
SCR bits 0, 2 and 3 come back from the saved record where there is one, with an argument the whole SCR is the argument; the
record and the reservation are gone.  Nothing else changes.  The saved records, the check of the bank, the reservation and
the width of IC are the spec's decisions D19, D30, D7 and D13 (log 29). -/
def Obligations.ReturnsComplete : Prop :=
  (∀ (s : State) (p : Bool), s.cfg.icw ≤ 64 →
      let back := fun ptr : BitVec 64 => BitVec.ofNat 64 ((((ptr.toNat : Int) - if p then 1 else 0) % 2 ^ s.cfg.icw).toNat)
      (s.cfg.has .ret = true → exec (.ret p) s = .next { s with ic := back s.crp }) ∧
      (s.cfg.has .reti = true → s.savIrq = none →
        exec (.reti p) s = .next { s with ic := back s.irp, resv := none }) ∧
      (s.cfg.has .reti = true → ∀ b3, s.savIrq = some b3 →
        ∃ scr : Word, exec (.reti p) s = .next { s with ic := back s.irp, scr := scr, savIrq := none, resv := none } ∧
          ∀ k, k < 32 → scr.getLsbD k = if k = 3 then b3 else s.scr.getLsbD k)) ∧
  (∀ (s : State) (p : Bool) (loc : RegNum) (off : BitVec 20), s.scr.getLsbD 0 = true → s.cfg.icw ≤ 64 →
      let back := fun ptr : BitVec 64 => BitVec.ofNat 64 ((((ptr.toNat : Int) - if p then 1 else 0) % 2 ^ s.cfg.icw).toNat)
      let bankOk := fun scr : Word => scr.extractLsb' 4 4 = s.scr.extractLsb' 4 4 ∨
        (scr.extractLsb' 4 4).toNat < s.cfg.nbanks
      let reg : Word := (s.readGpr loc s.cfg.natMode.width).setWidth 32
      let restored := fun (scr : Word) (b : SavedBits) => ∀ k, k < 32 → scr.getLsbD k =
        if k = 0 then b.b0 else if k = 2 then b.b2 else if k = 3 then b.b3 else s.scr.getLsbD k
      (s.cfg.has .rete = true →
        (s.savExc = none → exec (.rete p) s = .next { s with ic := back s.erp, resv := none }) ∧
        (∀ b, s.savExc = some b → ∃ scr : Word, restored scr b ∧
          exec (.rete p) s = .next { s with ic := back s.erp, scr := scr, savExc := none, resv := none }) ∧
        (loc.toNat < s.cfg.ngpr → bankOk reg →
          exec (.reteR p loc) s = .next { s with ic := back s.erp, scr := reg, savExc := none, resv := none }) ∧
        (bankOk (off.setWidth 32) →
          exec (.reteO p off) s =
            .next { s with ic := back s.erp, scr := off.setWidth 32, savExc := none, resv := none })) ∧
      (s.cfg.has .retn = true →
        (s.savNmi = none → exec (.retn p) s = .next { s with ic := back s.nrp, resv := none }) ∧
        (∀ b, s.savNmi = some b → ∃ scr : Word, restored scr b ∧
          exec (.retn p) s = .next { s with ic := back s.nrp, scr := scr, savNmi := none, resv := none }) ∧
        (loc.toNat < s.cfg.ngpr → bankOk reg →
          exec (.retnR p loc) s = .next { s with ic := back s.nrp, scr := reg, savNmi := none, resv := none }) ∧
        (bankOk (off.setWidth 32) →
          exec (.retnO p off) s =
            .next { s with ic := back s.nrp, scr := off.setWidth 32, savNmi := none, resv := none })))

/-- WAIT, register and offset forms (R405): indefinite for zero, else the timer is loaded; IC and every other register
stay. One clock cycle of the waiting core (R406): an NMI, an enabled interrupt, the timer; a request that arrives in the
cycle is latched first. The width of the timer is the spec's decision D14 (log 20); the cycle is its rule with its
decision D32, outside debug mode (log 29); the list of inputs is the model's (log 7). -/
def Obligations.WaitInstruction : Prop :=
  (∀ (s : State) (loc : RegNum) (off : BitVec 20), s.cfg.has .wait = true →
    let pauses := fun (i : Instr) (v : Nat) =>
      (v = 0 → exec i s = .next { s with run := .waitingForever }) ∧
      (v ≠ 0 → exec i s = .next { s with run := .waitingTimed, waitTimer := v })
    pauses (.waitO off) off.toNat ∧
    (loc.toNat < s.cfg.ngpr →
      pauses (.waitR loc) ((s.readGpr loc s.cfg.natMode.width).toNat % 2 ^ s.cfg.waitw))) ∧
  (∀ s : State, s.cfg.valid = true → s.run = .waitingTimed ∨ s.run = .waitingForever → s.debugMode = false →
    let cycle := fun t : State =>
      let woken := { t with run := .running, waitTimer := 0, ic := s.icWrap (s.ic + 1) }
      let irq := t.irqPending = true ∧ s.scr.getLsbD 3 = true
      (t.nmiPending = true → step s = .next (State.enter woken .nmi)) ∧
      (t.nmiPending = false → irq → step s = .next (State.enter woken .interrupt)) ∧
      (t.nmiPending = false → ¬irq → s.run = .waitingForever → step s = .next t) ∧
      (t.nmiPending = false → ¬irq → s.run = .waitingTimed → 2 ≤ s.waitTimer →
        step s = .next { t with waitTimer := s.waitTimer - 1 }) ∧
      (t.nmiPending = false → ¬irq → s.run = .waitingTimed → s.waitTimer ≤ 1 → step s = .next woken)
    (s.inputs = [] → cycle s.quiet) ∧
    (∀ i rest, s.inputs = i :: rest → i.reset = false → cycle (s.acted i rest)))

/-! ## Data transfer -/

/-- Loads and load-locked loads of every addressing form whose access completes (R201, R203, R206, R207): the index
is written first, the data last, a load-locked sets the reservation; memory and every other register stay. The order
of the writes and the reservation are the spec's decisions D29 and D7 (log 22, 29). -/
def Obligations.LoadCompletes : Prop :=
  ∀ (s : State) (locked : Bool) (m : MMode) (d : RegNum) (x : Addr) (v : BitVec m.width), s.TransferReady m d x →
    s.memRead .read (s.effective m x) m.width = some v →
    ∃ ps, s.physRange .read (s.effective m x) (m.width / 8) = some ps ∧
      exec (.load locked m d x) s = .next { ((s.indexed m x).writeGpr d v) with
        resv := if locked then some ⟨s.effective m x, m.width / 8, ps⟩ else s.resv
        ic := s.icWrap (s.ic + 1) }

/-- Stores of every addressing form whose access completes (R202, R204, R206): the bytes at the effective address receive
the value DESTINATION held before the instruction, every other byte keeps its value, the index is updated, the
reservation and every other register stay. The stored value is the spec's decision D29, that the reservation stays its
decision D7 (log 22, 29). -/
def Obligations.StoreCompletes : Prop :=
  ∀ (s : State) (m : MMode) (d : RegNum) (x : Addr) (ps : List Nat), s.TransferReady m d x →
    s.physRange .write (s.effective m x) (m.width / 8) = some ps →
    ∃ mem : Memory, exec (.store false m d x) s = .next { (s.indexed m x) with mem := mem, ic := s.icWrap (s.ic + 1) } ∧
      (∀ a, a ∉ ps → memByte mem a = memByte s.mem a) ∧
      (Memory.wf s.mem = true → ps.Nodup →
        ps.map (memByte mem) = bytesOfValue s.cfg.endian (m.width / 8) (s.readGpr d m.width).toNat)

/-- Store-conditionals of every addressing form (R208, R116): with a matching reservation and the environment's
consent the store happens and DESTINATION receives 1; without, nothing is stored and it receives 0; the reservation
is gone. The reservation is the spec's decision D7 and D27, the stored value its decision D29 (log 8, 22, 29). -/
def Obligations.StoreConditionalCompletes : Prop :=
  ∀ (s : State) (m : MMode) (d : RegNum) (x : Addr), s.TransferReady m d x →
    let ea := s.effective m x
    let matching := s.maySucceed = true ∧ ∃ r, s.resv = some r ∧ r.addr = ea ∧ r.bytes = m.width / 8
    (∀ ps, matching → s.physRange .write ea (m.width / 8) = some ps →
      ∃ mem : Memory, exec (.store true m d x) s = .next { ((s.indexed m x).writeGpr d (1 : BitVec m.width)) with
          mem := mem, resv := none, ic := s.icWrap (s.ic + 1) } ∧
        (∀ a, a ∉ ps → memByte mem a = memByte s.mem a) ∧
        (Memory.wf s.mem = true → ps.Nodup →
          ps.map (memByte mem) = bytesOfValue s.cfg.endian (m.width / 8) (s.readGpr d m.width).toNat)) ∧
    (¬matching → exec (.store true m d x) s = .next { ((s.indexed m x).writeGpr d (0 : BitVec m.width)) with
        resv := none, ic := s.icWrap (s.ic + 1) })

/-- A pair of a load-locked and the next store-conditional at the same address and width succeeds, whatever
addressing forms the two use, unless the environment refuses; a write of another agent to a reserved byte breaks the
pair, one elsewhere does not (R116). The reservation is the spec's decision D7, the physical bytes the model's (log
8, 22). -/
def Obligations.LoadLockedStoreConditional : Prop :=
  ∀ (s t : State) (m : MMode) (d d' : RegNum) (x x' : Addr), s.cfg.translation = [] → s.dataFault = false →
    s.TransferReady m d x → t.TransferReady m d' x' → exec (.load true m d x) s = .next t →
    t.effective m x' = s.effective m x →
    (∃ r, t.resv = some r ∧ r.addr = s.effective m x ∧ r.bytes = m.width / 8 ∧
      ∀ c : Host.Cell, (t.externalWrite c).resv =
        if ∃ k, k < m.width / 8 ∧ c.1 % 2 ^ s.cfg.paw = (s.effective m x + k) % 2 ^ s.cfg.paw then none else t.resv) ∧
    (t.maySucceed = true → ∃ u, exec (.store true m d' x') t = .next u ∧ u.resv = none ∧
      (0 < s.cfg.ngpr → s.bankBase + s.cfg.ngpr ≤ s.gpr.length → pieces m.width s.cfg.gprw.width ≤ s.cfg.ngpr →
        u.readGpr d' m.width = 1)) ∧
    (t.maySucceed = false → ∃ u, exec (.store true m d' x') t = .next u ∧ u.resv = none ∧ u.mem = t.mem ∧
      (0 < s.cfg.ngpr → s.bankBase + s.cfg.ngpr ≤ s.gpr.length → pieces m.width s.cfg.gprw.width ≤ s.cfg.ngpr →
        u.readGpr d' m.width = 0))

/-- A failing data access (R475): no register of the instruction, no byte of memory and no reservation changes;
EXC[21] and EXI are written, IC advances; impotent, the error line is set. The spec's decision D25 (log 9, 29). -/
def Obligations.DataBusError : Prop :=
  ∀ (s : State) (m : MMode) (d : RegNum) (x : Addr), s.TransferReady m d x → s.abandoned = false →
    let ea := s.effective m x
    let failed := { s with exc := s.exc ||| 0x200000#64, exi := s.ir, ic := s.icWrap (s.ic + 1) }
    let after := if s.scr.getLsbD 2 = true ∧ s.exm.getLsbD 21 = false then { failed with abandoned := true }
      else { failed with error := true }
    (∀ locked, s.physRange .read ea (m.width / 8) = none → exec (.load locked m d x) s = .next after) ∧
    (s.physRange .write ea (m.width / 8) = none → exec (.store false m d x) s = .next after) ∧
    (∀ r, s.physRange .write ea (m.width / 8) = none → s.resv = some r → r.addr = ea → r.bytes = m.width / 8 →
      s.maySucceed = true → exec (.store true m d x) s = .next after)

/-- The inter-register transfers from and to the GPR, DSP and FP files, from the special registers, and the load
immediate (R209, R210, R212 to R216): the destination receives the `w`-bit value, IC advances, nothing else changes.
The width of FP transfers is the model's reading (log 17). -/
def Obligations.RegisterTransfersComplete : Prop :=
  ∀ (s : State) (m : MMode) (u : Bool) (d r : RegNum) (imm : BitVec 18), m.width ≤ s.cfg.maxXfer.width →
    (d.toNat < s.cfg.ngpr →
      (r.toNat < s.cfg.ngpr →
        exec (.movRegReg m d r) s = .next { s.writeGpr d (s.readGpr r m.width) with ic := s.icWrap (s.ic + 1) }) ∧
      (r.toNat < 27 →
        exec (.movRegSpc m d r) s = .next { s.writeGpr d (s.readSpc r m.width) with ic := s.icWrap (s.ic + 1) }) ∧
      (∀ f, s.cfg.dsp = some f → r.toNat < f.count →
        exec (.movRegDsp m d r) s = .next { s.writeGpr d (s.readDsp f r m.width) with ic := s.icWrap (s.ic + 1) }) ∧
      (∀ f, s.cfg.fpr = some f → r.toNat < f.count →
        exec (.movRegFpr m d r) s = .next { s.writeGpr d (s.readFpr f r m.width) with ic := s.icWrap (s.ic + 1) }) ∧
      exec (.movImm m u d imm) s = .next { s.writeGpr d (extend u m.width imm) with ic := s.icWrap (s.ic + 1) }) ∧
    (r.toNat < s.cfg.ngpr →
      (∀ f, s.cfg.dsp = some f → d.toNat < f.count →
        exec (.movDspReg m d r) s = .next { s.writeDsp f d (s.readGpr r m.width) with ic := s.icWrap (s.ic + 1) }) ∧
      (∀ f, s.cfg.fpr = some f → d.toNat < f.count →
        exec (.movFprReg m d r) s = .next { s.writeFpr f d (s.readGpr r m.width) with ic := s.icWrap (s.ic + 1) }))

/-- MOV to a special register (R211, R38, R51): user mode traps on a slot below 20, system mode on spc0 and spc1, a bank
that does not exist traps; else the slots are written, and IC is 0 after a write to PID, IC + 1 after any other.
All-or-nothing, the PID rule and the order of the checks are the spec's decisions D20, D30, D33 and D38 (log 29). EXI on
an impotent exception is the spec's decision D10 (log 29). -/
def Obligations.SpecialRegisterTransferOutcome : Prop :=
  ∀ (s : State) (m : MMode) (d r : RegNum), m.width ≤ s.cfg.maxXfer.width → d.toNat < 27 → r.toNat < s.cfg.ngpr →
    let touched := fun k => ∃ j, j < max 1 (m.width / 32) ∧ k = (d.toNat + j) % 27
    let system := s.scr.getLsbD 0 = true
    let new := s.writeSpc d (s.readGpr r m.width)
    let userTrap := ¬system ∧ ∃ k, k < 20 ∧ touched k
    let readOnly := system ∧ (touched 0 ∨ touched 1)
    let noBank := touched 15 ∧ new.scr.extractLsb' 4 4 ≠ s.scr.extractLsb' 4 4 ∧
      s.cfg.nbanks ≤ (new.scr.extractLsb' 4 4).toNat
    (userTrap → exec (.movSpcReg m d r) s = .next (s.skipped 3)) ∧
    (readOnly → exec (.movSpcReg m d r) s = .next (s.skipped 7)) ∧
    (¬userTrap → ¬readOnly → noBank → exec (.movSpcReg m d r) s = .next (s.skipped 4)) ∧
    (¬userTrap → ¬readOnly → ¬noBank → touched 13 ∨ touched 14 →
      exec (.movSpcReg m d r) s = .next { new with ic := 0 }) ∧
    (¬userTrap → ¬readOnly → ¬noBank → ¬(touched 13 ∨ touched 14) →
      exec (.movSpcReg m d r) s = .next { new with ic := s.icWrap (s.ic + 1) })

/-! ## Traps of the decode-time checks -/

/-- RETE and RETN of every form are system instructions: in user mode they raise SYSTEM INSTRUCTION and nothing but EXC,
EXI and IC changes (R460, R403, R404); in system mode a new SCR with a bank that does not exist raises UNIMPLEMENTED GPR
BANK (R461). The check of the bank on a return and the order of the checks are the spec's decisions D30 and D38 (log
29). EXI on an impotent exception is the spec's decision D10 (log 29). -/
def Obligations.ReturnTraps : Prop :=
  ∀ (s : State) (p : Bool) (loc : RegNum) (off : BitVec 20), s.cfg.has .rete = true → s.cfg.has .retn = true →
    let noBank := fun scr : Word => scr.extractLsb' 4 4 ≠ s.scr.extractLsb' 4 4 ∧
      s.cfg.nbanks ≤ (scr.extractLsb' 4 4).toNat
    let reg : Word := (s.readGpr loc s.cfg.natMode.width).setWidth 32
    (s.scr.getLsbD 0 = false →
      (∀ i ∈ [Instr.rete p, .reteO p off, .retn p, .retnO p off], exec i s = .next (s.skipped 3)) ∧
      (loc.toNat < s.cfg.ngpr → ∀ i ∈ [Instr.reteR p loc, .retnR p loc], exec i s = .next (s.skipped 3))) ∧
    (s.scr.getLsbD 0 = true →
      (noBank (off.setWidth 32) → ∀ i ∈ [Instr.reteO p off, .retnO p off], exec i s = .next (s.skipped 4)) ∧
      (loc.toNat < s.cfg.ngpr → noBank reg →
        ∀ i ∈ [Instr.reteR p loc, .retnR p loc], exec i s = .next (s.skipped 4)))

/-- Every instruction the implementation does not provide (`Instr.provided`, R159) raises UNIMPLEMENTED INSTRUCTION and
is skipped; an arithmetic/logic one sets UNIMPLEMENTED OPERATION alone in EST where the exception is impotent (R462,
R44). EST and the order of the checks are the spec's decisions D23, D34 and D38 (log 19, 29); that FEXT and FSQZ raise
it in a mode whose format is not wider than an extended FPU's but has more exponent or more fraction bits is the model's
choice (log 40). EXI on an impotent exception is the spec's decision D10 (log 29). -/
def Obligations.UnimplementedInstructionTraps : Prop :=
  ∀ (s : State) (i : Instr), Instr.provided s.cfg i = false →
    (Instr.isAlu i = false → exec i s = .next (s.skipped 5)) ∧
    (Instr.isAlu i = true → s.potent 0x20 = true → exec i s = .next (s.skipped 5)) ∧
    (Instr.isAlu i = true → s.potent 0x20 = false →
      exec i s = .next ((s.noted 5).setFlags { unimplementedOperation := true }).advance)

/-- Every instruction with a register field beyond its file, or of a file that is absent (`Instr.registersExist`, R158),
raises UNIMPLEMENTED REGISTER and is skipped (R463). Which fields are checked, and when, are the spec's decisions D35
and D38 (log 29), that EST stays is the model's (log 36). EXI on an impotent exception is the spec's decision D10 (log
29). -/
def Obligations.UnimplementedRegisterTraps : Prop :=
  ∀ (s : State) (i : Instr), Instr.provided s.cfg i = true → Instr.registersExist s.cfg i = false →
    exec i s = .next (s.skipped 6)

/-! ## Frames -/

/-- What an arithmetic/logic instruction can change: the GPR and FP files, EST[15:0], EXC, EXI and IC; EXC bits are only
set, EXI is the old one or the instruction's word, IC is IC + 1; memory and every other register stay.  Of the GPR file
an integer instruction changes only the registers of its result.  That EST[31:16] stays is the spec's decision D22
(R43; log 29). -/
def Obligations.AluFrame : Prop :=
  ∀ (i : Instr) (s t : State), Instr.isAlu i = true → exec i s = .next t →
    t = { s with gpr := t.gpr, fpr := t.fpr, est := s.est.extractLsb' 16 16 ++ t.est.extractLsb' 0 16, exc := t.exc,
                 exi := t.exi, ic := s.icWrap (s.ic + 1), abandoned := t.abandoned } ∧
    s.exc &&& t.exc = s.exc ∧ (t.exi = s.exi ∨ t.exi = s.ir) ∧ t.gpr.length = s.gpr.length ∧
    ((encodeFields i).b24 = false →
      t.fpr = s.fpr ∧
      ∀ k, (∀ j, j < Instr.resultRegisters s.cfg i →
          k ≠ s.bankBase + ((encodeFields i).dest.toNat + j) % s.cfg.ngpr) →
        t.gpr.getD k 0 = s.gpr.getD k 0)

/-- What a control instruction can change: IC, CRP, SCR, EXC, EXI, the wait state, the reservation and the saved records;
no GPR, no FP or DSP register, no EST bit, no byte of memory, no other special register; SCR only a return. -/
def Obligations.ControlFrame : Prop :=
  ∀ (i : Instr) (s t : State), Instr.isControl i = true → exec i s = .next t →
    t = { s with ic := t.ic, crp := t.crp, scr := t.scr, exc := t.exc, exi := t.exi, run := t.run,
                 waitTimer := t.waitTimer, resv := t.resv, savExc := t.savExc, savNmi := t.savNmi, savIrq := t.savIrq,
                 abandoned := t.abandoned } ∧
    ((encodeFields i).aux ≠ 13 → t.scr = s.scr ∧ t.resv = s.resv ∧ t.savExc = s.savExc ∧ t.savNmi = s.savNmi ∧
      t.savIrq = s.savIrq) ∧
    (Instr.isWait i = false → t.run = s.run ∧ t.waitTimer = s.waitTimer)

/-- What a data transfer can change (R218): memory only a store, and of it only the bytes at its effective address; the GPR
file only its destination and the index it updates; EST and the other special registers only a MOV to the special register
file, which leaves every register file, memory and the hidden state; the DSP and FP files only a transfer to them; RUN, the
saved records and the pending events never. -/
def Obligations.TransferFrame : Prop :=
  ∀ (i : Instr) (s t : State), Instr.isTransfer i = true → exec i s = .next t →
    t.cfg = s.cfg ∧ t.run = s.run ∧ t.waitTimer = s.waitTimer ∧ t.nmiPending = s.nmiPending ∧
    t.irqPending = s.irqPending ∧ t.savExc = s.savExc ∧ t.savNmi = s.savNmi ∧ t.savIrq = s.savIrq ∧
    t.gpr.length = s.gpr.length ∧
    ((∀ m d r, i ≠ .movSpcReg m d r) →
      t = { s with gpr := t.gpr, dsp := t.dsp, fpr := t.fpr, mem := t.mem, exc := t.exc, exi := t.exi, ic := t.ic,
                   error := t.error, resv := t.resv, abandoned := t.abandoned }) ∧
    ((∀ atomic m d x, i ≠ .store atomic m d x) → t.mem = s.mem) ∧
    ((∀ m d r, i ≠ .movDspReg m d r) → t.dsp = s.dsp) ∧
    ((∀ m d r, i ≠ .movFprReg m d r) → t.fpr = s.fpr) ∧
    t.extra = s.extra ∧
    (∀ atomic m d x, i = .store atomic m d x →
      ∀ a, (∀ ps, s.physRange .write (s.effective m x) (m.width / 8) = some ps → a ∉ ps) →
        memByte t.mem a = memByte s.mem a) ∧
    (let cell := fun (r : RegNum) (j : Nat) => s.bankBase + (r.toNat + j) % s.cfg.ngpr
      let index := fun (m : MMode) (x : Addr) (k : Nat) => ∃ r v, s.indexWrite m x = some (r, v) ∧
        ∃ j, j < pieces s.cfg.pawm.width s.cfg.gprw.width ∧ k = cell r j
      let data := fun (m : MMode) (d : RegNum) (k : Nat) => ∃ j, j < pieces m.width s.cfg.gprw.width ∧ k = cell d j
      (∀ locked m d x, i = .load locked m d x →
        ∀ k, ¬data m d k → ¬index m x k → t.gpr.getD k 0 = s.gpr.getD k 0) ∧
      (∀ m d x, i = .store false m d x → ∀ k, ¬index m x k → t.gpr.getD k 0 = s.gpr.getD k 0) ∧
      (∀ m d x, i = .store true m d x → ∀ k, ¬data m d k → ¬index m x k → t.gpr.getD k 0 = s.gpr.getD k 0) ∧
      (∀ m d r, i ∈ [Instr.movRegReg m d r, .movRegSpc m d r, .movRegDsp m d r, .movRegFpr m d r] →
        ∀ k, ¬data m d k → t.gpr.getD k 0 = s.gpr.getD k 0) ∧
      (∀ m u d imm, i = .movImm m u d imm → ∀ k, ¬data m d k → t.gpr.getD k 0 = s.gpr.getD k 0) ∧
      (∀ m d r, i ∈ [Instr.movSpcReg m d r, .movDspReg m d r, .movFprReg m d r] → t.gpr = s.gpr)) ∧
    (∀ m d r, i = .movSpcReg m d r →
      t = { s with est := t.est, exi := t.exi, exc := t.exc, exm := t.exm, etb := t.etb, itb := t.itb, cid := t.cid,
                   pid := t.pid, scr := t.scr, nrp := t.nrp, erp := t.erp, ucr := t.ucr, crp := t.crp, irp := t.irp,
                   dcr := t.dcr, ic := t.ic, abandoned := t.abandoned })
end

