-- ==== Sys2Proof/Laws/Decode.lean ====
section
/-! SUPPORT. The bits of a word and its fields: cutting a word built from fields gives the fields back; the pieces of an
immediate put together give the immediate; the codes of modes and updates. -/
namespace Sys2Proof

/-- The fields of the word of some fields are those fields. -/
@[simp] theorem Fields.ofWord_toWord (f : Fields) : Fields.ofWord f.toWord = f := by
  obtain ⟨g, m, a, b, c, d, x, h, mi, l⟩ := f
  simp only [Fields.toWord, Fields.ofWord, Fields.mk.injEq]
  refine ⟨?_, ?_, ?_, ?_, ?_, ?_, ?_, ?_, ?_, ?_⟩
  case refine_3 | refine_4 | refine_5 => simp only [BitVec.getLsbD_append]; simp
  all_goals
    apply BitVec.eq_of_getLsbD_eq
    intro i hi
    simp only [BitVec.getLsbD_extractLsb', BitVec.getLsbD_append]
    interval_cases i <;> simp

/-- The word of the fields of a word is the word. -/
@[simp] theorem Fields.toWord_ofWord (w : Word) : (Fields.ofWord w).toWord = w := by
  simp only [Fields.toWord, Fields.ofWord]
  apply BitVec.eq_of_getLsbD_eq
  intro i hi
  simp only [BitVec.getLsbD_append, BitVec.getLsbD_extractLsb']
  interval_cases i <;> simp

@[simp] theorem MMode.ofCode_code (m : MMode) : MMode.ofCode m.code = m := by cases m <;> rfl

@[simp] theorem MMode.code_ofCode (c : BitVec 3) : (MMode.ofCode c).code = c := by revert c; decide

@[simp] theorem Update.ofCode_code (u : Update) : Update.ofCode u.code = some u := by cases u <;> rfl

/-- IMMEDIATE14 from its three pieces. -/
theorem imm14_pieces (x : BitVec 14) : x.extractLsb' 12 2 ++ (x.extractLsb' 6 6 ++ x.extractLsb' 0 6) = x := by
  apply BitVec.eq_of_getLsbD_eq; intro i hi
  simp only [BitVec.getLsbD_append, BitVec.getLsbD_extractLsb']
  interval_cases i <;> simp

/-- IMMEDIATE8 from its two pieces. -/
theorem imm8_pieces (x : BitVec 8) : x.extractLsb' 6 2 ++ x.extractLsb' 0 6 = x := by
  apply BitVec.eq_of_getLsbD_eq; intro i hi
  simp only [BitVec.getLsbD_append, BitVec.getLsbD_extractLsb']
  interval_cases i <;> simp

/-- OFFSET12 from its three pieces. -/
theorem off12_pieces (x : BitVec 12) : x.extractLsb' 8 4 ++ (x.extractLsb' 6 2 ++ x.extractLsb' 0 6) = x := by
  apply BitVec.eq_of_getLsbD_eq; intro i hi
  simp only [BitVec.getLsbD_append, BitVec.getLsbD_extractLsb']
  interval_cases i <;> simp

/-- IMMEDIATE18 from its four pieces. -/
theorem imm18_pieces (x : BitVec 18) :
    x.extractLsb' 14 4 ++ (x.extractLsb' 12 2 ++ (x.extractLsb' 6 6 ++ x.extractLsb' 0 6)) = x := by
  apply BitVec.eq_of_getLsbD_eq; intro i hi
  simp only [BitVec.getLsbD_append, BitVec.getLsbD_extractLsb']
  interval_cases i <;> simp

/-- OFFSET20 from its four pieces. -/
theorem off20_pieces (x : BitVec 20) :
    x.extractLsb' 14 6 ++ (x.extractLsb' 12 2 ++ (x.extractLsb' 6 6 ++ x.extractLsb' 0 6)) = x := by
  apply BitVec.eq_of_getLsbD_eq; intro i hi
  simp only [BitVec.getLsbD_append, BitVec.getLsbD_extractLsb']
  interval_cases i <;> simp

/-- Decoding the word of an instruction is decoding its fields. -/
theorem decode_encode_fields (i : Instr) : decode (encode i) = decodeFields (encodeFields i) := by
  simp [decode, encode]

/-- Four bytes of a word, put together in the same byte order, give the word. -/
@[simp] theorem decodeBytes_bytesOfWord (e : Endian) (w : Word) (rest : List Byte) :
    decodeBytes e (bytesOfWord e w ++ rest) = (decode w).map fun i => (i, rest) := by
  have h : w.extractLsb' 24 8 ++ (w.extractLsb' 16 8 ++ (w.extractLsb' 8 8 ++ w.extractLsb' 0 8)) = w := by
    apply BitVec.eq_of_getLsbD_eq; intro i hi
    simp only [BitVec.getLsbD_append, BitVec.getLsbD_extractLsb']
    interval_cases i <;> simp
  cases e <;> simp [bytesOfWord, decodeBytes, wordOfBytes, h]

end Sys2Proof
end

