-- ==== Sys2Proof/Laws/State.lean ====
section
/-! SUPPORT. One lemma per field per update of the state, so that no proof unfolds a record update. -/
namespace Sys2Proof.Machine

/-! ## `State.advance` -/

@[simp] theorem State.advance_cfg (s : State) :
    s.advance.cfg = s.cfg := rfl
@[simp] theorem State.advance_gpr (s : State) :
    s.advance.gpr = s.gpr := rfl
@[simp] theorem State.advance_dsp (s : State) :
    s.advance.dsp = s.dsp := rfl
@[simp] theorem State.advance_fpr (s : State) :
    s.advance.fpr = s.fpr := rfl
@[simp] theorem State.advance_extra (s : State) :
    s.advance.extra = s.extra := rfl
@[simp] theorem State.advance_mem (s : State) :
    s.advance.mem = s.mem := rfl
@[simp] theorem State.advance_ic (s : State) :
    s.advance.ic = s.icWrap (s.ic + 1) := rfl
@[simp] theorem State.advance_est (s : State) :
    s.advance.est = s.est := rfl
@[simp] theorem State.advance_exi (s : State) :
    s.advance.exi = s.exi := rfl
@[simp] theorem State.advance_exc (s : State) :
    s.advance.exc = s.exc := rfl
@[simp] theorem State.advance_exm (s : State) :
    s.advance.exm = s.exm := rfl
@[simp] theorem State.advance_etb (s : State) :
    s.advance.etb = s.etb := rfl
@[simp] theorem State.advance_itb (s : State) :
    s.advance.itb = s.itb := rfl
@[simp] theorem State.advance_cid (s : State) :
    s.advance.cid = s.cid := rfl
@[simp] theorem State.advance_pid (s : State) :
    s.advance.pid = s.pid := rfl
@[simp] theorem State.advance_scr (s : State) :
    s.advance.scr = s.scr := rfl
@[simp] theorem State.advance_nrp (s : State) :
    s.advance.nrp = s.nrp := rfl
@[simp] theorem State.advance_erp (s : State) :
    s.advance.erp = s.erp := rfl
@[simp] theorem State.advance_ucr (s : State) :
    s.advance.ucr = s.ucr := rfl
@[simp] theorem State.advance_crp (s : State) :
    s.advance.crp = s.crp := rfl
@[simp] theorem State.advance_irp (s : State) :
    s.advance.irp = s.irp := rfl
@[simp] theorem State.advance_dcr (s : State) :
    s.advance.dcr = s.dcr := rfl
@[simp] theorem State.advance_run (s : State) :
    s.advance.run = s.run := rfl
@[simp] theorem State.advance_waitTimer (s : State) :
    s.advance.waitTimer = s.waitTimer := rfl
@[simp] theorem State.advance_resv (s : State) :
    s.advance.resv = s.resv := rfl
@[simp] theorem State.advance_nmiPending (s : State) :
    s.advance.nmiPending = s.nmiPending := rfl
@[simp] theorem State.advance_irqPending (s : State) :
    s.advance.irqPending = s.irqPending := rfl
@[simp] theorem State.advance_savExc (s : State) :
    s.advance.savExc = s.savExc := rfl
@[simp] theorem State.advance_savNmi (s : State) :
    s.advance.savNmi = s.savNmi := rfl
@[simp] theorem State.advance_savIrq (s : State) :
    s.advance.savIrq = s.savIrq := rfl
@[simp] theorem State.advance_error (s : State) :
    s.advance.error = s.error := rfl
@[simp] theorem State.advance_ir (s : State) :
    s.advance.ir = s.ir := rfl
@[simp] theorem State.advance_abandoned (s : State) :
    s.advance.abandoned = s.abandoned := rfl
@[simp] theorem State.advance_maySucceed (s : State) :
    s.advance.maySucceed = s.maySucceed := rfl
@[simp] theorem State.advance_fetchFault (s : State) :
    s.advance.fetchFault = s.fetchFault := rfl
@[simp] theorem State.advance_dataFault (s : State) :
    s.advance.dataFault = s.dataFault := rfl
@[simp] theorem State.advance_freeCount (s : State) :
    s.advance.freeCount = s.freeCount := rfl
@[simp] theorem State.advance_inputs (s : State) :
    s.advance.inputs = s.inputs := rfl

/-! ## `State.setFlags` -/

@[simp] theorem State.setFlags_cfg (s : State) (f : EstFlags) :
    (s.setFlags f).cfg = s.cfg := rfl
@[simp] theorem State.setFlags_gpr (s : State) (f : EstFlags) :
    (s.setFlags f).gpr = s.gpr := rfl
@[simp] theorem State.setFlags_dsp (s : State) (f : EstFlags) :
    (s.setFlags f).dsp = s.dsp := rfl
@[simp] theorem State.setFlags_fpr (s : State) (f : EstFlags) :
    (s.setFlags f).fpr = s.fpr := rfl
@[simp] theorem State.setFlags_extra (s : State) (f : EstFlags) :
    (s.setFlags f).extra = s.extra := rfl
@[simp] theorem State.setFlags_mem (s : State) (f : EstFlags) :
    (s.setFlags f).mem = s.mem := rfl
@[simp] theorem State.setFlags_ic (s : State) (f : EstFlags) :
    (s.setFlags f).ic = s.ic := rfl
@[simp] theorem State.setFlags_est (s : State) (f : EstFlags) :
    (s.setFlags f).est = s.est.extractLsb' 16 16 ++ f.bits := rfl
@[simp] theorem State.setFlags_exi (s : State) (f : EstFlags) :
    (s.setFlags f).exi = s.exi := rfl
@[simp] theorem State.setFlags_exc (s : State) (f : EstFlags) :
    (s.setFlags f).exc = s.exc := rfl
@[simp] theorem State.setFlags_exm (s : State) (f : EstFlags) :
    (s.setFlags f).exm = s.exm := rfl
@[simp] theorem State.setFlags_etb (s : State) (f : EstFlags) :
    (s.setFlags f).etb = s.etb := rfl
@[simp] theorem State.setFlags_itb (s : State) (f : EstFlags) :
    (s.setFlags f).itb = s.itb := rfl
@[simp] theorem State.setFlags_cid (s : State) (f : EstFlags) :
    (s.setFlags f).cid = s.cid := rfl
@[simp] theorem State.setFlags_pid (s : State) (f : EstFlags) :
    (s.setFlags f).pid = s.pid := rfl
@[simp] theorem State.setFlags_scr (s : State) (f : EstFlags) :
    (s.setFlags f).scr = s.scr := rfl
@[simp] theorem State.setFlags_nrp (s : State) (f : EstFlags) :
    (s.setFlags f).nrp = s.nrp := rfl
@[simp] theorem State.setFlags_erp (s : State) (f : EstFlags) :
    (s.setFlags f).erp = s.erp := rfl
@[simp] theorem State.setFlags_ucr (s : State) (f : EstFlags) :
    (s.setFlags f).ucr = s.ucr := rfl
@[simp] theorem State.setFlags_crp (s : State) (f : EstFlags) :
    (s.setFlags f).crp = s.crp := rfl
@[simp] theorem State.setFlags_irp (s : State) (f : EstFlags) :
    (s.setFlags f).irp = s.irp := rfl
@[simp] theorem State.setFlags_dcr (s : State) (f : EstFlags) :
    (s.setFlags f).dcr = s.dcr := rfl
@[simp] theorem State.setFlags_run (s : State) (f : EstFlags) :
    (s.setFlags f).run = s.run := rfl
@[simp] theorem State.setFlags_waitTimer (s : State) (f : EstFlags) :
    (s.setFlags f).waitTimer = s.waitTimer := rfl
@[simp] theorem State.setFlags_resv (s : State) (f : EstFlags) :
    (s.setFlags f).resv = s.resv := rfl
@[simp] theorem State.setFlags_nmiPending (s : State) (f : EstFlags) :
    (s.setFlags f).nmiPending = s.nmiPending := rfl
@[simp] theorem State.setFlags_irqPending (s : State) (f : EstFlags) :
    (s.setFlags f).irqPending = s.irqPending := rfl
@[simp] theorem State.setFlags_savExc (s : State) (f : EstFlags) :
    (s.setFlags f).savExc = s.savExc := rfl
@[simp] theorem State.setFlags_savNmi (s : State) (f : EstFlags) :
    (s.setFlags f).savNmi = s.savNmi := rfl
@[simp] theorem State.setFlags_savIrq (s : State) (f : EstFlags) :
    (s.setFlags f).savIrq = s.savIrq := rfl
@[simp] theorem State.setFlags_error (s : State) (f : EstFlags) :
    (s.setFlags f).error = s.error := rfl
@[simp] theorem State.setFlags_ir (s : State) (f : EstFlags) :
    (s.setFlags f).ir = s.ir := rfl
@[simp] theorem State.setFlags_abandoned (s : State) (f : EstFlags) :
    (s.setFlags f).abandoned = s.abandoned := rfl
@[simp] theorem State.setFlags_maySucceed (s : State) (f : EstFlags) :
    (s.setFlags f).maySucceed = s.maySucceed := rfl
@[simp] theorem State.setFlags_fetchFault (s : State) (f : EstFlags) :
    (s.setFlags f).fetchFault = s.fetchFault := rfl
@[simp] theorem State.setFlags_dataFault (s : State) (f : EstFlags) :
    (s.setFlags f).dataFault = s.dataFault := rfl
@[simp] theorem State.setFlags_freeCount (s : State) (f : EstFlags) :
    (s.setFlags f).freeCount = s.freeCount := rfl
@[simp] theorem State.setFlags_inputs (s : State) (f : EstFlags) :
    (s.setFlags f).inputs = s.inputs := rfl

/-! ## `State.writeGprAt` -/

@[simp] theorem State.writeGprAt_cfg {w : Nat} (s : State) (i : Nat) (v : BitVec w) :
    (s.writeGprAt i v).cfg = s.cfg := rfl
@[simp] theorem State.writeGprAt_gpr {w : Nat} (s : State) (i : Nat) (v : BitVec w) :
    (s.writeGprAt i v).gpr = writeFile s.gpr s.bankBase s.cfg.ngpr s.cfg.gprw.width i v := rfl
@[simp] theorem State.writeGprAt_dsp {w : Nat} (s : State) (i : Nat) (v : BitVec w) :
    (s.writeGprAt i v).dsp = s.dsp := rfl
@[simp] theorem State.writeGprAt_fpr {w : Nat} (s : State) (i : Nat) (v : BitVec w) :
    (s.writeGprAt i v).fpr = s.fpr := rfl
@[simp] theorem State.writeGprAt_extra {w : Nat} (s : State) (i : Nat) (v : BitVec w) :
    (s.writeGprAt i v).extra = s.extra := rfl
@[simp] theorem State.writeGprAt_mem {w : Nat} (s : State) (i : Nat) (v : BitVec w) :
    (s.writeGprAt i v).mem = s.mem := rfl
@[simp] theorem State.writeGprAt_ic {w : Nat} (s : State) (i : Nat) (v : BitVec w) :
    (s.writeGprAt i v).ic = s.ic := rfl
@[simp] theorem State.writeGprAt_est {w : Nat} (s : State) (i : Nat) (v : BitVec w) :
    (s.writeGprAt i v).est = s.est := rfl
@[simp] theorem State.writeGprAt_exi {w : Nat} (s : State) (i : Nat) (v : BitVec w) :
    (s.writeGprAt i v).exi = s.exi := rfl
@[simp] theorem State.writeGprAt_exc {w : Nat} (s : State) (i : Nat) (v : BitVec w) :
    (s.writeGprAt i v).exc = s.exc := rfl
@[simp] theorem State.writeGprAt_exm {w : Nat} (s : State) (i : Nat) (v : BitVec w) :
    (s.writeGprAt i v).exm = s.exm := rfl
@[simp] theorem State.writeGprAt_etb {w : Nat} (s : State) (i : Nat) (v : BitVec w) :
    (s.writeGprAt i v).etb = s.etb := rfl
@[simp] theorem State.writeGprAt_itb {w : Nat} (s : State) (i : Nat) (v : BitVec w) :
    (s.writeGprAt i v).itb = s.itb := rfl
@[simp] theorem State.writeGprAt_cid {w : Nat} (s : State) (i : Nat) (v : BitVec w) :
    (s.writeGprAt i v).cid = s.cid := rfl
@[simp] theorem State.writeGprAt_pid {w : Nat} (s : State) (i : Nat) (v : BitVec w) :
    (s.writeGprAt i v).pid = s.pid := rfl
@[simp] theorem State.writeGprAt_scr {w : Nat} (s : State) (i : Nat) (v : BitVec w) :
    (s.writeGprAt i v).scr = s.scr := rfl
@[simp] theorem State.writeGprAt_nrp {w : Nat} (s : State) (i : Nat) (v : BitVec w) :
    (s.writeGprAt i v).nrp = s.nrp := rfl
@[simp] theorem State.writeGprAt_erp {w : Nat} (s : State) (i : Nat) (v : BitVec w) :
    (s.writeGprAt i v).erp = s.erp := rfl
@[simp] theorem State.writeGprAt_ucr {w : Nat} (s : State) (i : Nat) (v : BitVec w) :
    (s.writeGprAt i v).ucr = s.ucr := rfl
@[simp] theorem State.writeGprAt_crp {w : Nat} (s : State) (i : Nat) (v : BitVec w) :
    (s.writeGprAt i v).crp = s.crp := rfl
@[simp] theorem State.writeGprAt_irp {w : Nat} (s : State) (i : Nat) (v : BitVec w) :
    (s.writeGprAt i v).irp = s.irp := rfl
@[simp] theorem State.writeGprAt_dcr {w : Nat} (s : State) (i : Nat) (v : BitVec w) :
    (s.writeGprAt i v).dcr = s.dcr := rfl
@[simp] theorem State.writeGprAt_run {w : Nat} (s : State) (i : Nat) (v : BitVec w) :
    (s.writeGprAt i v).run = s.run := rfl
@[simp] theorem State.writeGprAt_waitTimer {w : Nat} (s : State) (i : Nat) (v : BitVec w) :
    (s.writeGprAt i v).waitTimer = s.waitTimer := rfl
@[simp] theorem State.writeGprAt_resv {w : Nat} (s : State) (i : Nat) (v : BitVec w) :
    (s.writeGprAt i v).resv = s.resv := rfl
@[simp] theorem State.writeGprAt_nmiPending {w : Nat} (s : State) (i : Nat) (v : BitVec w) :
    (s.writeGprAt i v).nmiPending = s.nmiPending := rfl
@[simp] theorem State.writeGprAt_irqPending {w : Nat} (s : State) (i : Nat) (v : BitVec w) :
    (s.writeGprAt i v).irqPending = s.irqPending := rfl
@[simp] theorem State.writeGprAt_savExc {w : Nat} (s : State) (i : Nat) (v : BitVec w) :
    (s.writeGprAt i v).savExc = s.savExc := rfl
@[simp] theorem State.writeGprAt_savNmi {w : Nat} (s : State) (i : Nat) (v : BitVec w) :
    (s.writeGprAt i v).savNmi = s.savNmi := rfl
@[simp] theorem State.writeGprAt_savIrq {w : Nat} (s : State) (i : Nat) (v : BitVec w) :
    (s.writeGprAt i v).savIrq = s.savIrq := rfl
@[simp] theorem State.writeGprAt_error {w : Nat} (s : State) (i : Nat) (v : BitVec w) :
    (s.writeGprAt i v).error = s.error := rfl
@[simp] theorem State.writeGprAt_ir {w : Nat} (s : State) (i : Nat) (v : BitVec w) :
    (s.writeGprAt i v).ir = s.ir := rfl
@[simp] theorem State.writeGprAt_abandoned {w : Nat} (s : State) (i : Nat) (v : BitVec w) :
    (s.writeGprAt i v).abandoned = s.abandoned := rfl
@[simp] theorem State.writeGprAt_maySucceed {w : Nat} (s : State) (i : Nat) (v : BitVec w) :
    (s.writeGprAt i v).maySucceed = s.maySucceed := rfl
@[simp] theorem State.writeGprAt_fetchFault {w : Nat} (s : State) (i : Nat) (v : BitVec w) :
    (s.writeGprAt i v).fetchFault = s.fetchFault := rfl
@[simp] theorem State.writeGprAt_dataFault {w : Nat} (s : State) (i : Nat) (v : BitVec w) :
    (s.writeGprAt i v).dataFault = s.dataFault := rfl
@[simp] theorem State.writeGprAt_freeCount {w : Nat} (s : State) (i : Nat) (v : BitVec w) :
    (s.writeGprAt i v).freeCount = s.freeCount := rfl
@[simp] theorem State.writeGprAt_inputs {w : Nat} (s : State) (i : Nat) (v : BitVec w) :
    (s.writeGprAt i v).inputs = s.inputs := rfl

/-! ## `State.writeGpr` -/

@[simp] theorem State.writeGpr_cfg {w : Nat} (s : State) (i : RegNum) (v : BitVec w) :
    (s.writeGpr i v).cfg = s.cfg := rfl
@[simp] theorem State.writeGpr_gpr {w : Nat} (s : State) (i : RegNum) (v : BitVec w) :
    (s.writeGpr i v).gpr = writeFile s.gpr s.bankBase s.cfg.ngpr s.cfg.gprw.width i.toNat v := rfl
@[simp] theorem State.writeGpr_dsp {w : Nat} (s : State) (i : RegNum) (v : BitVec w) :
    (s.writeGpr i v).dsp = s.dsp := rfl
@[simp] theorem State.writeGpr_fpr {w : Nat} (s : State) (i : RegNum) (v : BitVec w) :
    (s.writeGpr i v).fpr = s.fpr := rfl
@[simp] theorem State.writeGpr_extra {w : Nat} (s : State) (i : RegNum) (v : BitVec w) :
    (s.writeGpr i v).extra = s.extra := rfl
@[simp] theorem State.writeGpr_mem {w : Nat} (s : State) (i : RegNum) (v : BitVec w) :
    (s.writeGpr i v).mem = s.mem := rfl
@[simp] theorem State.writeGpr_ic {w : Nat} (s : State) (i : RegNum) (v : BitVec w) :
    (s.writeGpr i v).ic = s.ic := rfl
@[simp] theorem State.writeGpr_est {w : Nat} (s : State) (i : RegNum) (v : BitVec w) :
    (s.writeGpr i v).est = s.est := rfl
@[simp] theorem State.writeGpr_exi {w : Nat} (s : State) (i : RegNum) (v : BitVec w) :
    (s.writeGpr i v).exi = s.exi := rfl
@[simp] theorem State.writeGpr_exc {w : Nat} (s : State) (i : RegNum) (v : BitVec w) :
    (s.writeGpr i v).exc = s.exc := rfl
@[simp] theorem State.writeGpr_exm {w : Nat} (s : State) (i : RegNum) (v : BitVec w) :
    (s.writeGpr i v).exm = s.exm := rfl
@[simp] theorem State.writeGpr_etb {w : Nat} (s : State) (i : RegNum) (v : BitVec w) :
    (s.writeGpr i v).etb = s.etb := rfl
@[simp] theorem State.writeGpr_itb {w : Nat} (s : State) (i : RegNum) (v : BitVec w) :
    (s.writeGpr i v).itb = s.itb := rfl
@[simp] theorem State.writeGpr_cid {w : Nat} (s : State) (i : RegNum) (v : BitVec w) :
    (s.writeGpr i v).cid = s.cid := rfl
@[simp] theorem State.writeGpr_pid {w : Nat} (s : State) (i : RegNum) (v : BitVec w) :
    (s.writeGpr i v).pid = s.pid := rfl
@[simp] theorem State.writeGpr_scr {w : Nat} (s : State) (i : RegNum) (v : BitVec w) :
    (s.writeGpr i v).scr = s.scr := rfl
@[simp] theorem State.writeGpr_nrp {w : Nat} (s : State) (i : RegNum) (v : BitVec w) :
    (s.writeGpr i v).nrp = s.nrp := rfl
@[simp] theorem State.writeGpr_erp {w : Nat} (s : State) (i : RegNum) (v : BitVec w) :
    (s.writeGpr i v).erp = s.erp := rfl
@[simp] theorem State.writeGpr_ucr {w : Nat} (s : State) (i : RegNum) (v : BitVec w) :
    (s.writeGpr i v).ucr = s.ucr := rfl
@[simp] theorem State.writeGpr_crp {w : Nat} (s : State) (i : RegNum) (v : BitVec w) :
    (s.writeGpr i v).crp = s.crp := rfl
@[simp] theorem State.writeGpr_irp {w : Nat} (s : State) (i : RegNum) (v : BitVec w) :
    (s.writeGpr i v).irp = s.irp := rfl
@[simp] theorem State.writeGpr_dcr {w : Nat} (s : State) (i : RegNum) (v : BitVec w) :
    (s.writeGpr i v).dcr = s.dcr := rfl
@[simp] theorem State.writeGpr_run {w : Nat} (s : State) (i : RegNum) (v : BitVec w) :
    (s.writeGpr i v).run = s.run := rfl
@[simp] theorem State.writeGpr_waitTimer {w : Nat} (s : State) (i : RegNum) (v : BitVec w) :
    (s.writeGpr i v).waitTimer = s.waitTimer := rfl
@[simp] theorem State.writeGpr_resv {w : Nat} (s : State) (i : RegNum) (v : BitVec w) :
    (s.writeGpr i v).resv = s.resv := rfl
@[simp] theorem State.writeGpr_nmiPending {w : Nat} (s : State) (i : RegNum) (v : BitVec w) :
    (s.writeGpr i v).nmiPending = s.nmiPending := rfl
@[simp] theorem State.writeGpr_irqPending {w : Nat} (s : State) (i : RegNum) (v : BitVec w) :
    (s.writeGpr i v).irqPending = s.irqPending := rfl
@[simp] theorem State.writeGpr_savExc {w : Nat} (s : State) (i : RegNum) (v : BitVec w) :
    (s.writeGpr i v).savExc = s.savExc := rfl
@[simp] theorem State.writeGpr_savNmi {w : Nat} (s : State) (i : RegNum) (v : BitVec w) :
    (s.writeGpr i v).savNmi = s.savNmi := rfl
@[simp] theorem State.writeGpr_savIrq {w : Nat} (s : State) (i : RegNum) (v : BitVec w) :
    (s.writeGpr i v).savIrq = s.savIrq := rfl
@[simp] theorem State.writeGpr_error {w : Nat} (s : State) (i : RegNum) (v : BitVec w) :
    (s.writeGpr i v).error = s.error := rfl
@[simp] theorem State.writeGpr_ir {w : Nat} (s : State) (i : RegNum) (v : BitVec w) :
    (s.writeGpr i v).ir = s.ir := rfl
@[simp] theorem State.writeGpr_abandoned {w : Nat} (s : State) (i : RegNum) (v : BitVec w) :
    (s.writeGpr i v).abandoned = s.abandoned := rfl
@[simp] theorem State.writeGpr_maySucceed {w : Nat} (s : State) (i : RegNum) (v : BitVec w) :
    (s.writeGpr i v).maySucceed = s.maySucceed := rfl
@[simp] theorem State.writeGpr_fetchFault {w : Nat} (s : State) (i : RegNum) (v : BitVec w) :
    (s.writeGpr i v).fetchFault = s.fetchFault := rfl
@[simp] theorem State.writeGpr_dataFault {w : Nat} (s : State) (i : RegNum) (v : BitVec w) :
    (s.writeGpr i v).dataFault = s.dataFault := rfl
@[simp] theorem State.writeGpr_freeCount {w : Nat} (s : State) (i : RegNum) (v : BitVec w) :
    (s.writeGpr i v).freeCount = s.freeCount := rfl
@[simp] theorem State.writeGpr_inputs {w : Nat} (s : State) (i : RegNum) (v : BitVec w) :
    (s.writeGpr i v).inputs = s.inputs := rfl

/-! ## `State.writeDsp` -/

@[simp] theorem State.writeDsp_cfg {w : Nat} (s : State) (f : DspFile) (i : RegNum) (v : BitVec w) :
    (s.writeDsp f i v).cfg = s.cfg := rfl
@[simp] theorem State.writeDsp_gpr {w : Nat} (s : State) (f : DspFile) (i : RegNum) (v : BitVec w) :
    (s.writeDsp f i v).gpr = s.gpr := rfl
@[simp] theorem State.writeDsp_dsp {w : Nat} (s : State) (f : DspFile) (i : RegNum) (v : BitVec w) :
    (s.writeDsp f i v).dsp = writeFile s.dsp 0 f.count f.width.width i.toNat v := rfl
@[simp] theorem State.writeDsp_fpr {w : Nat} (s : State) (f : DspFile) (i : RegNum) (v : BitVec w) :
    (s.writeDsp f i v).fpr = s.fpr := rfl
@[simp] theorem State.writeDsp_extra {w : Nat} (s : State) (f : DspFile) (i : RegNum) (v : BitVec w) :
    (s.writeDsp f i v).extra = s.extra := rfl
@[simp] theorem State.writeDsp_mem {w : Nat} (s : State) (f : DspFile) (i : RegNum) (v : BitVec w) :
    (s.writeDsp f i v).mem = s.mem := rfl
@[simp] theorem State.writeDsp_ic {w : Nat} (s : State) (f : DspFile) (i : RegNum) (v : BitVec w) :
    (s.writeDsp f i v).ic = s.ic := rfl
@[simp] theorem State.writeDsp_est {w : Nat} (s : State) (f : DspFile) (i : RegNum) (v : BitVec w) :
    (s.writeDsp f i v).est = s.est := rfl
@[simp] theorem State.writeDsp_exi {w : Nat} (s : State) (f : DspFile) (i : RegNum) (v : BitVec w) :
    (s.writeDsp f i v).exi = s.exi := rfl
@[simp] theorem State.writeDsp_exc {w : Nat} (s : State) (f : DspFile) (i : RegNum) (v : BitVec w) :
    (s.writeDsp f i v).exc = s.exc := rfl
@[simp] theorem State.writeDsp_exm {w : Nat} (s : State) (f : DspFile) (i : RegNum) (v : BitVec w) :
    (s.writeDsp f i v).exm = s.exm := rfl
@[simp] theorem State.writeDsp_etb {w : Nat} (s : State) (f : DspFile) (i : RegNum) (v : BitVec w) :
    (s.writeDsp f i v).etb = s.etb := rfl
@[simp] theorem State.writeDsp_itb {w : Nat} (s : State) (f : DspFile) (i : RegNum) (v : BitVec w) :
    (s.writeDsp f i v).itb = s.itb := rfl
@[simp] theorem State.writeDsp_cid {w : Nat} (s : State) (f : DspFile) (i : RegNum) (v : BitVec w) :
    (s.writeDsp f i v).cid = s.cid := rfl
@[simp] theorem State.writeDsp_pid {w : Nat} (s : State) (f : DspFile) (i : RegNum) (v : BitVec w) :
    (s.writeDsp f i v).pid = s.pid := rfl
@[simp] theorem State.writeDsp_scr {w : Nat} (s : State) (f : DspFile) (i : RegNum) (v : BitVec w) :
    (s.writeDsp f i v).scr = s.scr := rfl
@[simp] theorem State.writeDsp_nrp {w : Nat} (s : State) (f : DspFile) (i : RegNum) (v : BitVec w) :
    (s.writeDsp f i v).nrp = s.nrp := rfl
@[simp] theorem State.writeDsp_erp {w : Nat} (s : State) (f : DspFile) (i : RegNum) (v : BitVec w) :
    (s.writeDsp f i v).erp = s.erp := rfl
@[simp] theorem State.writeDsp_ucr {w : Nat} (s : State) (f : DspFile) (i : RegNum) (v : BitVec w) :
    (s.writeDsp f i v).ucr = s.ucr := rfl
@[simp] theorem State.writeDsp_crp {w : Nat} (s : State) (f : DspFile) (i : RegNum) (v : BitVec w) :
    (s.writeDsp f i v).crp = s.crp := rfl
@[simp] theorem State.writeDsp_irp {w : Nat} (s : State) (f : DspFile) (i : RegNum) (v : BitVec w) :
    (s.writeDsp f i v).irp = s.irp := rfl
@[simp] theorem State.writeDsp_dcr {w : Nat} (s : State) (f : DspFile) (i : RegNum) (v : BitVec w) :
    (s.writeDsp f i v).dcr = s.dcr := rfl
@[simp] theorem State.writeDsp_run {w : Nat} (s : State) (f : DspFile) (i : RegNum) (v : BitVec w) :
    (s.writeDsp f i v).run = s.run := rfl
@[simp] theorem State.writeDsp_waitTimer {w : Nat} (s : State) (f : DspFile) (i : RegNum) (v : BitVec w) :
    (s.writeDsp f i v).waitTimer = s.waitTimer := rfl
@[simp] theorem State.writeDsp_resv {w : Nat} (s : State) (f : DspFile) (i : RegNum) (v : BitVec w) :
    (s.writeDsp f i v).resv = s.resv := rfl
@[simp] theorem State.writeDsp_nmiPending {w : Nat} (s : State) (f : DspFile) (i : RegNum) (v : BitVec w) :
    (s.writeDsp f i v).nmiPending = s.nmiPending := rfl
@[simp] theorem State.writeDsp_irqPending {w : Nat} (s : State) (f : DspFile) (i : RegNum) (v : BitVec w) :
    (s.writeDsp f i v).irqPending = s.irqPending := rfl
@[simp] theorem State.writeDsp_savExc {w : Nat} (s : State) (f : DspFile) (i : RegNum) (v : BitVec w) :
    (s.writeDsp f i v).savExc = s.savExc := rfl
@[simp] theorem State.writeDsp_savNmi {w : Nat} (s : State) (f : DspFile) (i : RegNum) (v : BitVec w) :
    (s.writeDsp f i v).savNmi = s.savNmi := rfl
@[simp] theorem State.writeDsp_savIrq {w : Nat} (s : State) (f : DspFile) (i : RegNum) (v : BitVec w) :
    (s.writeDsp f i v).savIrq = s.savIrq := rfl
@[simp] theorem State.writeDsp_error {w : Nat} (s : State) (f : DspFile) (i : RegNum) (v : BitVec w) :
    (s.writeDsp f i v).error = s.error := rfl
@[simp] theorem State.writeDsp_ir {w : Nat} (s : State) (f : DspFile) (i : RegNum) (v : BitVec w) :
    (s.writeDsp f i v).ir = s.ir := rfl
@[simp] theorem State.writeDsp_abandoned {w : Nat} (s : State) (f : DspFile) (i : RegNum) (v : BitVec w) :
    (s.writeDsp f i v).abandoned = s.abandoned := rfl
@[simp] theorem State.writeDsp_maySucceed {w : Nat} (s : State) (f : DspFile) (i : RegNum) (v : BitVec w) :
    (s.writeDsp f i v).maySucceed = s.maySucceed := rfl
@[simp] theorem State.writeDsp_fetchFault {w : Nat} (s : State) (f : DspFile) (i : RegNum) (v : BitVec w) :
    (s.writeDsp f i v).fetchFault = s.fetchFault := rfl
@[simp] theorem State.writeDsp_dataFault {w : Nat} (s : State) (f : DspFile) (i : RegNum) (v : BitVec w) :
    (s.writeDsp f i v).dataFault = s.dataFault := rfl
@[simp] theorem State.writeDsp_freeCount {w : Nat} (s : State) (f : DspFile) (i : RegNum) (v : BitVec w) :
    (s.writeDsp f i v).freeCount = s.freeCount := rfl
@[simp] theorem State.writeDsp_inputs {w : Nat} (s : State) (f : DspFile) (i : RegNum) (v : BitVec w) :
    (s.writeDsp f i v).inputs = s.inputs := rfl

/-! ## `State.writeFpr` -/

@[simp] theorem State.writeFpr_cfg {w : Nat} (s : State) (f : FprFile) (i : RegNum) (v : BitVec w) :
    (s.writeFpr f i v).cfg = s.cfg := rfl
@[simp] theorem State.writeFpr_gpr {w : Nat} (s : State) (f : FprFile) (i : RegNum) (v : BitVec w) :
    (s.writeFpr f i v).gpr = s.gpr := rfl
@[simp] theorem State.writeFpr_dsp {w : Nat} (s : State) (f : FprFile) (i : RegNum) (v : BitVec w) :
    (s.writeFpr f i v).dsp = s.dsp := rfl
@[simp] theorem State.writeFpr_fpr {w : Nat} (s : State) (f : FprFile) (i : RegNum) (v : BitVec w) :
    (s.writeFpr f i v).fpr = s.fpr.set i.toNat (setLow (min w f.width) (s.fpr.getD i.toNat 0) v.toNat) := rfl
@[simp] theorem State.writeFpr_extra {w : Nat} (s : State) (f : FprFile) (i : RegNum) (v : BitVec w) :
    (s.writeFpr f i v).extra = s.extra := rfl
@[simp] theorem State.writeFpr_mem {w : Nat} (s : State) (f : FprFile) (i : RegNum) (v : BitVec w) :
    (s.writeFpr f i v).mem = s.mem := rfl
@[simp] theorem State.writeFpr_ic {w : Nat} (s : State) (f : FprFile) (i : RegNum) (v : BitVec w) :
    (s.writeFpr f i v).ic = s.ic := rfl
@[simp] theorem State.writeFpr_est {w : Nat} (s : State) (f : FprFile) (i : RegNum) (v : BitVec w) :
    (s.writeFpr f i v).est = s.est := rfl
@[simp] theorem State.writeFpr_exi {w : Nat} (s : State) (f : FprFile) (i : RegNum) (v : BitVec w) :
    (s.writeFpr f i v).exi = s.exi := rfl
@[simp] theorem State.writeFpr_exc {w : Nat} (s : State) (f : FprFile) (i : RegNum) (v : BitVec w) :
    (s.writeFpr f i v).exc = s.exc := rfl
@[simp] theorem State.writeFpr_exm {w : Nat} (s : State) (f : FprFile) (i : RegNum) (v : BitVec w) :
    (s.writeFpr f i v).exm = s.exm := rfl
@[simp] theorem State.writeFpr_etb {w : Nat} (s : State) (f : FprFile) (i : RegNum) (v : BitVec w) :
    (s.writeFpr f i v).etb = s.etb := rfl
@[simp] theorem State.writeFpr_itb {w : Nat} (s : State) (f : FprFile) (i : RegNum) (v : BitVec w) :
    (s.writeFpr f i v).itb = s.itb := rfl
@[simp] theorem State.writeFpr_cid {w : Nat} (s : State) (f : FprFile) (i : RegNum) (v : BitVec w) :
    (s.writeFpr f i v).cid = s.cid := rfl
@[simp] theorem State.writeFpr_pid {w : Nat} (s : State) (f : FprFile) (i : RegNum) (v : BitVec w) :
    (s.writeFpr f i v).pid = s.pid := rfl
@[simp] theorem State.writeFpr_scr {w : Nat} (s : State) (f : FprFile) (i : RegNum) (v : BitVec w) :
    (s.writeFpr f i v).scr = s.scr := rfl
@[simp] theorem State.writeFpr_nrp {w : Nat} (s : State) (f : FprFile) (i : RegNum) (v : BitVec w) :
    (s.writeFpr f i v).nrp = s.nrp := rfl
@[simp] theorem State.writeFpr_erp {w : Nat} (s : State) (f : FprFile) (i : RegNum) (v : BitVec w) :
    (s.writeFpr f i v).erp = s.erp := rfl
@[simp] theorem State.writeFpr_ucr {w : Nat} (s : State) (f : FprFile) (i : RegNum) (v : BitVec w) :
    (s.writeFpr f i v).ucr = s.ucr := rfl
@[simp] theorem State.writeFpr_crp {w : Nat} (s : State) (f : FprFile) (i : RegNum) (v : BitVec w) :
    (s.writeFpr f i v).crp = s.crp := rfl
@[simp] theorem State.writeFpr_irp {w : Nat} (s : State) (f : FprFile) (i : RegNum) (v : BitVec w) :
    (s.writeFpr f i v).irp = s.irp := rfl
@[simp] theorem State.writeFpr_dcr {w : Nat} (s : State) (f : FprFile) (i : RegNum) (v : BitVec w) :
    (s.writeFpr f i v).dcr = s.dcr := rfl
@[simp] theorem State.writeFpr_run {w : Nat} (s : State) (f : FprFile) (i : RegNum) (v : BitVec w) :
    (s.writeFpr f i v).run = s.run := rfl
@[simp] theorem State.writeFpr_waitTimer {w : Nat} (s : State) (f : FprFile) (i : RegNum) (v : BitVec w) :
    (s.writeFpr f i v).waitTimer = s.waitTimer := rfl
@[simp] theorem State.writeFpr_resv {w : Nat} (s : State) (f : FprFile) (i : RegNum) (v : BitVec w) :
    (s.writeFpr f i v).resv = s.resv := rfl
@[simp] theorem State.writeFpr_nmiPending {w : Nat} (s : State) (f : FprFile) (i : RegNum) (v : BitVec w) :
    (s.writeFpr f i v).nmiPending = s.nmiPending := rfl
@[simp] theorem State.writeFpr_irqPending {w : Nat} (s : State) (f : FprFile) (i : RegNum) (v : BitVec w) :
    (s.writeFpr f i v).irqPending = s.irqPending := rfl
@[simp] theorem State.writeFpr_savExc {w : Nat} (s : State) (f : FprFile) (i : RegNum) (v : BitVec w) :
    (s.writeFpr f i v).savExc = s.savExc := rfl
@[simp] theorem State.writeFpr_savNmi {w : Nat} (s : State) (f : FprFile) (i : RegNum) (v : BitVec w) :
    (s.writeFpr f i v).savNmi = s.savNmi := rfl
@[simp] theorem State.writeFpr_savIrq {w : Nat} (s : State) (f : FprFile) (i : RegNum) (v : BitVec w) :
    (s.writeFpr f i v).savIrq = s.savIrq := rfl
@[simp] theorem State.writeFpr_error {w : Nat} (s : State) (f : FprFile) (i : RegNum) (v : BitVec w) :
    (s.writeFpr f i v).error = s.error := rfl
@[simp] theorem State.writeFpr_ir {w : Nat} (s : State) (f : FprFile) (i : RegNum) (v : BitVec w) :
    (s.writeFpr f i v).ir = s.ir := rfl
@[simp] theorem State.writeFpr_abandoned {w : Nat} (s : State) (f : FprFile) (i : RegNum) (v : BitVec w) :
    (s.writeFpr f i v).abandoned = s.abandoned := rfl
@[simp] theorem State.writeFpr_maySucceed {w : Nat} (s : State) (f : FprFile) (i : RegNum) (v : BitVec w) :
    (s.writeFpr f i v).maySucceed = s.maySucceed := rfl
@[simp] theorem State.writeFpr_fetchFault {w : Nat} (s : State) (f : FprFile) (i : RegNum) (v : BitVec w) :
    (s.writeFpr f i v).fetchFault = s.fetchFault := rfl
@[simp] theorem State.writeFpr_dataFault {w : Nat} (s : State) (f : FprFile) (i : RegNum) (v : BitVec w) :
    (s.writeFpr f i v).dataFault = s.dataFault := rfl
@[simp] theorem State.writeFpr_freeCount {w : Nat} (s : State) (f : FprFile) (i : RegNum) (v : BitVec w) :
    (s.writeFpr f i v).freeCount = s.freeCount := rfl
@[simp] theorem State.writeFpr_inputs {w : Nat} (s : State) (f : FprFile) (i : RegNum) (v : BitVec w) :
    (s.writeFpr f i v).inputs = s.inputs := rfl

/-! ## `State.writeExtra` -/

@[simp] theorem State.writeExtra_cfg {w : Nat} (s : State) (k : Nat) (f : ExtraFile) (i : RegNum) (v : BitVec w) :
    (s.writeExtra k f i v).cfg = s.cfg := rfl
@[simp] theorem State.writeExtra_gpr {w : Nat} (s : State) (k : Nat) (f : ExtraFile) (i : RegNum) (v : BitVec w) :
    (s.writeExtra k f i v).gpr = s.gpr := rfl
@[simp] theorem State.writeExtra_dsp {w : Nat} (s : State) (k : Nat) (f : ExtraFile) (i : RegNum) (v : BitVec w) :
    (s.writeExtra k f i v).dsp = s.dsp := rfl
@[simp] theorem State.writeExtra_fpr {w : Nat} (s : State) (k : Nat) (f : ExtraFile) (i : RegNum) (v : BitVec w) :
    (s.writeExtra k f i v).fpr = s.fpr := rfl
@[simp] theorem State.writeExtra_extra {w : Nat} (s : State) (k : Nat) (f : ExtraFile) (i : RegNum) (v : BitVec w) :
    (s.writeExtra k f i v).extra = s.extra.set k (writeFile (s.extra.getD k []) 0 f.count f.width.width i.toNat v) := rfl
@[simp] theorem State.writeExtra_mem {w : Nat} (s : State) (k : Nat) (f : ExtraFile) (i : RegNum) (v : BitVec w) :
    (s.writeExtra k f i v).mem = s.mem := rfl
@[simp] theorem State.writeExtra_ic {w : Nat} (s : State) (k : Nat) (f : ExtraFile) (i : RegNum) (v : BitVec w) :
    (s.writeExtra k f i v).ic = s.ic := rfl
@[simp] theorem State.writeExtra_est {w : Nat} (s : State) (k : Nat) (f : ExtraFile) (i : RegNum) (v : BitVec w) :
    (s.writeExtra k f i v).est = s.est := rfl
@[simp] theorem State.writeExtra_exi {w : Nat} (s : State) (k : Nat) (f : ExtraFile) (i : RegNum) (v : BitVec w) :
    (s.writeExtra k f i v).exi = s.exi := rfl
@[simp] theorem State.writeExtra_exc {w : Nat} (s : State) (k : Nat) (f : ExtraFile) (i : RegNum) (v : BitVec w) :
    (s.writeExtra k f i v).exc = s.exc := rfl
@[simp] theorem State.writeExtra_exm {w : Nat} (s : State) (k : Nat) (f : ExtraFile) (i : RegNum) (v : BitVec w) :
    (s.writeExtra k f i v).exm = s.exm := rfl
@[simp] theorem State.writeExtra_etb {w : Nat} (s : State) (k : Nat) (f : ExtraFile) (i : RegNum) (v : BitVec w) :
    (s.writeExtra k f i v).etb = s.etb := rfl
@[simp] theorem State.writeExtra_itb {w : Nat} (s : State) (k : Nat) (f : ExtraFile) (i : RegNum) (v : BitVec w) :
    (s.writeExtra k f i v).itb = s.itb := rfl
@[simp] theorem State.writeExtra_cid {w : Nat} (s : State) (k : Nat) (f : ExtraFile) (i : RegNum) (v : BitVec w) :
    (s.writeExtra k f i v).cid = s.cid := rfl
@[simp] theorem State.writeExtra_pid {w : Nat} (s : State) (k : Nat) (f : ExtraFile) (i : RegNum) (v : BitVec w) :
    (s.writeExtra k f i v).pid = s.pid := rfl
@[simp] theorem State.writeExtra_scr {w : Nat} (s : State) (k : Nat) (f : ExtraFile) (i : RegNum) (v : BitVec w) :
    (s.writeExtra k f i v).scr = s.scr := rfl
@[simp] theorem State.writeExtra_nrp {w : Nat} (s : State) (k : Nat) (f : ExtraFile) (i : RegNum) (v : BitVec w) :
    (s.writeExtra k f i v).nrp = s.nrp := rfl
@[simp] theorem State.writeExtra_erp {w : Nat} (s : State) (k : Nat) (f : ExtraFile) (i : RegNum) (v : BitVec w) :
    (s.writeExtra k f i v).erp = s.erp := rfl
@[simp] theorem State.writeExtra_ucr {w : Nat} (s : State) (k : Nat) (f : ExtraFile) (i : RegNum) (v : BitVec w) :
    (s.writeExtra k f i v).ucr = s.ucr := rfl
@[simp] theorem State.writeExtra_crp {w : Nat} (s : State) (k : Nat) (f : ExtraFile) (i : RegNum) (v : BitVec w) :
    (s.writeExtra k f i v).crp = s.crp := rfl
@[simp] theorem State.writeExtra_irp {w : Nat} (s : State) (k : Nat) (f : ExtraFile) (i : RegNum) (v : BitVec w) :
    (s.writeExtra k f i v).irp = s.irp := rfl
@[simp] theorem State.writeExtra_dcr {w : Nat} (s : State) (k : Nat) (f : ExtraFile) (i : RegNum) (v : BitVec w) :
    (s.writeExtra k f i v).dcr = s.dcr := rfl
@[simp] theorem State.writeExtra_run {w : Nat} (s : State) (k : Nat) (f : ExtraFile) (i : RegNum) (v : BitVec w) :
    (s.writeExtra k f i v).run = s.run := rfl
@[simp] theorem State.writeExtra_waitTimer {w : Nat} (s : State) (k : Nat) (f : ExtraFile) (i : RegNum) (v : BitVec w) :
    (s.writeExtra k f i v).waitTimer = s.waitTimer := rfl
@[simp] theorem State.writeExtra_resv {w : Nat} (s : State) (k : Nat) (f : ExtraFile) (i : RegNum) (v : BitVec w) :
    (s.writeExtra k f i v).resv = s.resv := rfl
@[simp] theorem State.writeExtra_nmiPending {w : Nat} (s : State) (k : Nat) (f : ExtraFile) (i : RegNum) (v : BitVec w) :
    (s.writeExtra k f i v).nmiPending = s.nmiPending := rfl
@[simp] theorem State.writeExtra_irqPending {w : Nat} (s : State) (k : Nat) (f : ExtraFile) (i : RegNum) (v : BitVec w) :
    (s.writeExtra k f i v).irqPending = s.irqPending := rfl
@[simp] theorem State.writeExtra_savExc {w : Nat} (s : State) (k : Nat) (f : ExtraFile) (i : RegNum) (v : BitVec w) :
    (s.writeExtra k f i v).savExc = s.savExc := rfl
@[simp] theorem State.writeExtra_savNmi {w : Nat} (s : State) (k : Nat) (f : ExtraFile) (i : RegNum) (v : BitVec w) :
    (s.writeExtra k f i v).savNmi = s.savNmi := rfl
@[simp] theorem State.writeExtra_savIrq {w : Nat} (s : State) (k : Nat) (f : ExtraFile) (i : RegNum) (v : BitVec w) :
    (s.writeExtra k f i v).savIrq = s.savIrq := rfl
@[simp] theorem State.writeExtra_error {w : Nat} (s : State) (k : Nat) (f : ExtraFile) (i : RegNum) (v : BitVec w) :
    (s.writeExtra k f i v).error = s.error := rfl
@[simp] theorem State.writeExtra_ir {w : Nat} (s : State) (k : Nat) (f : ExtraFile) (i : RegNum) (v : BitVec w) :
    (s.writeExtra k f i v).ir = s.ir := rfl
@[simp] theorem State.writeExtra_abandoned {w : Nat} (s : State) (k : Nat) (f : ExtraFile) (i : RegNum) (v : BitVec w) :
    (s.writeExtra k f i v).abandoned = s.abandoned := rfl
@[simp] theorem State.writeExtra_maySucceed {w : Nat} (s : State) (k : Nat) (f : ExtraFile) (i : RegNum) (v : BitVec w) :
    (s.writeExtra k f i v).maySucceed = s.maySucceed := rfl
@[simp] theorem State.writeExtra_fetchFault {w : Nat} (s : State) (k : Nat) (f : ExtraFile) (i : RegNum) (v : BitVec w) :
    (s.writeExtra k f i v).fetchFault = s.fetchFault := rfl
@[simp] theorem State.writeExtra_dataFault {w : Nat} (s : State) (k : Nat) (f : ExtraFile) (i : RegNum) (v : BitVec w) :
    (s.writeExtra k f i v).dataFault = s.dataFault := rfl
@[simp] theorem State.writeExtra_freeCount {w : Nat} (s : State) (k : Nat) (f : ExtraFile) (i : RegNum) (v : BitVec w) :
    (s.writeExtra k f i v).freeCount = s.freeCount := rfl
@[simp] theorem State.writeExtra_inputs {w : Nat} (s : State) (k : Nat) (f : ExtraFile) (i : RegNum) (v : BitVec w) :
    (s.writeExtra k f i v).inputs = s.inputs := rfl

/-! ## `State.note` -/

@[simp] theorem State.note_cfg (s : State) (mask : BitVec 64) :
    (s.note mask).cfg = s.cfg := rfl
@[simp] theorem State.note_gpr (s : State) (mask : BitVec 64) :
    (s.note mask).gpr = s.gpr := rfl
@[simp] theorem State.note_dsp (s : State) (mask : BitVec 64) :
    (s.note mask).dsp = s.dsp := rfl
@[simp] theorem State.note_fpr (s : State) (mask : BitVec 64) :
    (s.note mask).fpr = s.fpr := rfl
@[simp] theorem State.note_extra (s : State) (mask : BitVec 64) :
    (s.note mask).extra = s.extra := rfl
@[simp] theorem State.note_mem (s : State) (mask : BitVec 64) :
    (s.note mask).mem = s.mem := rfl
@[simp] theorem State.note_ic (s : State) (mask : BitVec 64) :
    (s.note mask).ic = s.ic := rfl
@[simp] theorem State.note_est (s : State) (mask : BitVec 64) :
    (s.note mask).est = s.est := rfl
@[simp] theorem State.note_exi (s : State) (mask : BitVec 64) :
    (s.note mask).exi = s.ir := rfl
@[simp] theorem State.note_exc (s : State) (mask : BitVec 64) :
    (s.note mask).exc = s.exc ||| mask := rfl
@[simp] theorem State.note_exm (s : State) (mask : BitVec 64) :
    (s.note mask).exm = s.exm := rfl
@[simp] theorem State.note_etb (s : State) (mask : BitVec 64) :
    (s.note mask).etb = s.etb := rfl
@[simp] theorem State.note_itb (s : State) (mask : BitVec 64) :
    (s.note mask).itb = s.itb := rfl
@[simp] theorem State.note_cid (s : State) (mask : BitVec 64) :
    (s.note mask).cid = s.cid := rfl
@[simp] theorem State.note_pid (s : State) (mask : BitVec 64) :
    (s.note mask).pid = s.pid := rfl
@[simp] theorem State.note_scr (s : State) (mask : BitVec 64) :
    (s.note mask).scr = s.scr := rfl
@[simp] theorem State.note_nrp (s : State) (mask : BitVec 64) :
    (s.note mask).nrp = s.nrp := rfl
@[simp] theorem State.note_erp (s : State) (mask : BitVec 64) :
    (s.note mask).erp = s.erp := rfl
@[simp] theorem State.note_ucr (s : State) (mask : BitVec 64) :
    (s.note mask).ucr = s.ucr := rfl
@[simp] theorem State.note_crp (s : State) (mask : BitVec 64) :
    (s.note mask).crp = s.crp := rfl
@[simp] theorem State.note_irp (s : State) (mask : BitVec 64) :
    (s.note mask).irp = s.irp := rfl
@[simp] theorem State.note_dcr (s : State) (mask : BitVec 64) :
    (s.note mask).dcr = s.dcr := rfl
@[simp] theorem State.note_run (s : State) (mask : BitVec 64) :
    (s.note mask).run = s.run := rfl
@[simp] theorem State.note_waitTimer (s : State) (mask : BitVec 64) :
    (s.note mask).waitTimer = s.waitTimer := rfl
@[simp] theorem State.note_resv (s : State) (mask : BitVec 64) :
    (s.note mask).resv = s.resv := rfl
@[simp] theorem State.note_nmiPending (s : State) (mask : BitVec 64) :
    (s.note mask).nmiPending = s.nmiPending := rfl
@[simp] theorem State.note_irqPending (s : State) (mask : BitVec 64) :
    (s.note mask).irqPending = s.irqPending := rfl
@[simp] theorem State.note_savExc (s : State) (mask : BitVec 64) :
    (s.note mask).savExc = s.savExc := rfl
@[simp] theorem State.note_savNmi (s : State) (mask : BitVec 64) :
    (s.note mask).savNmi = s.savNmi := rfl
@[simp] theorem State.note_savIrq (s : State) (mask : BitVec 64) :
    (s.note mask).savIrq = s.savIrq := rfl
@[simp] theorem State.note_error (s : State) (mask : BitVec 64) :
    (s.note mask).error = s.error := rfl
@[simp] theorem State.note_ir (s : State) (mask : BitVec 64) :
    (s.note mask).ir = s.ir := rfl
@[simp] theorem State.note_abandoned (s : State) (mask : BitVec 64) :
    (s.note mask).abandoned = s.abandoned := rfl
@[simp] theorem State.note_maySucceed (s : State) (mask : BitVec 64) :
    (s.note mask).maySucceed = s.maySucceed := rfl
@[simp] theorem State.note_fetchFault (s : State) (mask : BitVec 64) :
    (s.note mask).fetchFault = s.fetchFault := rfl
@[simp] theorem State.note_dataFault (s : State) (mask : BitVec 64) :
    (s.note mask).dataFault = s.dataFault := rfl
@[simp] theorem State.note_freeCount (s : State) (mask : BitVec 64) :
    (s.note mask).freeCount = s.freeCount := rfl
@[simp] theorem State.note_inputs (s : State) (mask : BitVec 64) :
    (s.note mask).inputs = s.inputs := rfl

/-! ## `State.writeFp` -/

@[simp] theorem State.writeFp_cfg {w : Nat} (s : State) (i : RegNum) (v : BitVec w) :
    (s.writeFp i v).cfg = s.cfg := by
  unfold State.writeFp; split <;> rfl
@[simp] theorem State.writeFp_dsp {w : Nat} (s : State) (i : RegNum) (v : BitVec w) :
    (s.writeFp i v).dsp = s.dsp := by
  unfold State.writeFp; split <;> rfl
@[simp] theorem State.writeFp_extra {w : Nat} (s : State) (i : RegNum) (v : BitVec w) :
    (s.writeFp i v).extra = s.extra := by
  unfold State.writeFp; split <;> rfl
@[simp] theorem State.writeFp_mem {w : Nat} (s : State) (i : RegNum) (v : BitVec w) :
    (s.writeFp i v).mem = s.mem := by
  unfold State.writeFp; split <;> rfl
@[simp] theorem State.writeFp_ic {w : Nat} (s : State) (i : RegNum) (v : BitVec w) :
    (s.writeFp i v).ic = s.ic := by
  unfold State.writeFp; split <;> rfl
@[simp] theorem State.writeFp_est {w : Nat} (s : State) (i : RegNum) (v : BitVec w) :
    (s.writeFp i v).est = s.est := by
  unfold State.writeFp; split <;> rfl
@[simp] theorem State.writeFp_exi {w : Nat} (s : State) (i : RegNum) (v : BitVec w) :
    (s.writeFp i v).exi = s.exi := by
  unfold State.writeFp; split <;> rfl
@[simp] theorem State.writeFp_exc {w : Nat} (s : State) (i : RegNum) (v : BitVec w) :
    (s.writeFp i v).exc = s.exc := by
  unfold State.writeFp; split <;> rfl
@[simp] theorem State.writeFp_exm {w : Nat} (s : State) (i : RegNum) (v : BitVec w) :
    (s.writeFp i v).exm = s.exm := by
  unfold State.writeFp; split <;> rfl
@[simp] theorem State.writeFp_etb {w : Nat} (s : State) (i : RegNum) (v : BitVec w) :
    (s.writeFp i v).etb = s.etb := by
  unfold State.writeFp; split <;> rfl
@[simp] theorem State.writeFp_itb {w : Nat} (s : State) (i : RegNum) (v : BitVec w) :
    (s.writeFp i v).itb = s.itb := by
  unfold State.writeFp; split <;> rfl
@[simp] theorem State.writeFp_cid {w : Nat} (s : State) (i : RegNum) (v : BitVec w) :
    (s.writeFp i v).cid = s.cid := by
  unfold State.writeFp; split <;> rfl
@[simp] theorem State.writeFp_pid {w : Nat} (s : State) (i : RegNum) (v : BitVec w) :
    (s.writeFp i v).pid = s.pid := by
  unfold State.writeFp; split <;> rfl
@[simp] theorem State.writeFp_scr {w : Nat} (s : State) (i : RegNum) (v : BitVec w) :
    (s.writeFp i v).scr = s.scr := by
  unfold State.writeFp; split <;> rfl
@[simp] theorem State.writeFp_nrp {w : Nat} (s : State) (i : RegNum) (v : BitVec w) :
    (s.writeFp i v).nrp = s.nrp := by
  unfold State.writeFp; split <;> rfl
@[simp] theorem State.writeFp_erp {w : Nat} (s : State) (i : RegNum) (v : BitVec w) :
    (s.writeFp i v).erp = s.erp := by
  unfold State.writeFp; split <;> rfl
@[simp] theorem State.writeFp_ucr {w : Nat} (s : State) (i : RegNum) (v : BitVec w) :
    (s.writeFp i v).ucr = s.ucr := by
  unfold State.writeFp; split <;> rfl
@[simp] theorem State.writeFp_crp {w : Nat} (s : State) (i : RegNum) (v : BitVec w) :
    (s.writeFp i v).crp = s.crp := by
  unfold State.writeFp; split <;> rfl
@[simp] theorem State.writeFp_irp {w : Nat} (s : State) (i : RegNum) (v : BitVec w) :
    (s.writeFp i v).irp = s.irp := by
  unfold State.writeFp; split <;> rfl
@[simp] theorem State.writeFp_dcr {w : Nat} (s : State) (i : RegNum) (v : BitVec w) :
    (s.writeFp i v).dcr = s.dcr := by
  unfold State.writeFp; split <;> rfl
@[simp] theorem State.writeFp_run {w : Nat} (s : State) (i : RegNum) (v : BitVec w) :
    (s.writeFp i v).run = s.run := by
  unfold State.writeFp; split <;> rfl
@[simp] theorem State.writeFp_waitTimer {w : Nat} (s : State) (i : RegNum) (v : BitVec w) :
    (s.writeFp i v).waitTimer = s.waitTimer := by
  unfold State.writeFp; split <;> rfl
@[simp] theorem State.writeFp_resv {w : Nat} (s : State) (i : RegNum) (v : BitVec w) :
    (s.writeFp i v).resv = s.resv := by
  unfold State.writeFp; split <;> rfl
@[simp] theorem State.writeFp_nmiPending {w : Nat} (s : State) (i : RegNum) (v : BitVec w) :
    (s.writeFp i v).nmiPending = s.nmiPending := by
  unfold State.writeFp; split <;> rfl
@[simp] theorem State.writeFp_irqPending {w : Nat} (s : State) (i : RegNum) (v : BitVec w) :
    (s.writeFp i v).irqPending = s.irqPending := by
  unfold State.writeFp; split <;> rfl
@[simp] theorem State.writeFp_savExc {w : Nat} (s : State) (i : RegNum) (v : BitVec w) :
    (s.writeFp i v).savExc = s.savExc := by
  unfold State.writeFp; split <;> rfl
@[simp] theorem State.writeFp_savNmi {w : Nat} (s : State) (i : RegNum) (v : BitVec w) :
    (s.writeFp i v).savNmi = s.savNmi := by
  unfold State.writeFp; split <;> rfl
@[simp] theorem State.writeFp_savIrq {w : Nat} (s : State) (i : RegNum) (v : BitVec w) :
    (s.writeFp i v).savIrq = s.savIrq := by
  unfold State.writeFp; split <;> rfl
@[simp] theorem State.writeFp_error {w : Nat} (s : State) (i : RegNum) (v : BitVec w) :
    (s.writeFp i v).error = s.error := by
  unfold State.writeFp; split <;> rfl
@[simp] theorem State.writeFp_ir {w : Nat} (s : State) (i : RegNum) (v : BitVec w) :
    (s.writeFp i v).ir = s.ir := by
  unfold State.writeFp; split <;> rfl
@[simp] theorem State.writeFp_abandoned {w : Nat} (s : State) (i : RegNum) (v : BitVec w) :
    (s.writeFp i v).abandoned = s.abandoned := by
  unfold State.writeFp; split <;> rfl
@[simp] theorem State.writeFp_maySucceed {w : Nat} (s : State) (i : RegNum) (v : BitVec w) :
    (s.writeFp i v).maySucceed = s.maySucceed := by
  unfold State.writeFp; split <;> rfl
@[simp] theorem State.writeFp_fetchFault {w : Nat} (s : State) (i : RegNum) (v : BitVec w) :
    (s.writeFp i v).fetchFault = s.fetchFault := by
  unfold State.writeFp; split <;> rfl
@[simp] theorem State.writeFp_dataFault {w : Nat} (s : State) (i : RegNum) (v : BitVec w) :
    (s.writeFp i v).dataFault = s.dataFault := by
  unfold State.writeFp; split <;> rfl
@[simp] theorem State.writeFp_freeCount {w : Nat} (s : State) (i : RegNum) (v : BitVec w) :
    (s.writeFp i v).freeCount = s.freeCount := by
  unfold State.writeFp; split <;> rfl
@[simp] theorem State.writeFp_inputs {w : Nat} (s : State) (i : RegNum) (v : BitVec w) :
    (s.writeFp i v).inputs = s.inputs := by
  unfold State.writeFp; split <;> rfl

/-! ## `State.writeFpPart` -/

@[simp] theorem State.writeFpPart_cfg {w : Nat} (s : State) (i : RegNum) (v : BitVec w) :
    (s.writeFpPart i v).cfg = s.cfg := by
  unfold State.writeFpPart; split <;> rfl
@[simp] theorem State.writeFpPart_dsp {w : Nat} (s : State) (i : RegNum) (v : BitVec w) :
    (s.writeFpPart i v).dsp = s.dsp := by
  unfold State.writeFpPart; split <;> rfl
@[simp] theorem State.writeFpPart_extra {w : Nat} (s : State) (i : RegNum) (v : BitVec w) :
    (s.writeFpPart i v).extra = s.extra := by
  unfold State.writeFpPart; split <;> rfl
@[simp] theorem State.writeFpPart_mem {w : Nat} (s : State) (i : RegNum) (v : BitVec w) :
    (s.writeFpPart i v).mem = s.mem := by
  unfold State.writeFpPart; split <;> rfl
@[simp] theorem State.writeFpPart_ic {w : Nat} (s : State) (i : RegNum) (v : BitVec w) :
    (s.writeFpPart i v).ic = s.ic := by
  unfold State.writeFpPart; split <;> rfl
@[simp] theorem State.writeFpPart_est {w : Nat} (s : State) (i : RegNum) (v : BitVec w) :
    (s.writeFpPart i v).est = s.est := by
  unfold State.writeFpPart; split <;> rfl
@[simp] theorem State.writeFpPart_exi {w : Nat} (s : State) (i : RegNum) (v : BitVec w) :
    (s.writeFpPart i v).exi = s.exi := by
  unfold State.writeFpPart; split <;> rfl
@[simp] theorem State.writeFpPart_exc {w : Nat} (s : State) (i : RegNum) (v : BitVec w) :
    (s.writeFpPart i v).exc = s.exc := by
  unfold State.writeFpPart; split <;> rfl
@[simp] theorem State.writeFpPart_exm {w : Nat} (s : State) (i : RegNum) (v : BitVec w) :
    (s.writeFpPart i v).exm = s.exm := by
  unfold State.writeFpPart; split <;> rfl
@[simp] theorem State.writeFpPart_etb {w : Nat} (s : State) (i : RegNum) (v : BitVec w) :
    (s.writeFpPart i v).etb = s.etb := by
  unfold State.writeFpPart; split <;> rfl
@[simp] theorem State.writeFpPart_itb {w : Nat} (s : State) (i : RegNum) (v : BitVec w) :
    (s.writeFpPart i v).itb = s.itb := by
  unfold State.writeFpPart; split <;> rfl
@[simp] theorem State.writeFpPart_cid {w : Nat} (s : State) (i : RegNum) (v : BitVec w) :
    (s.writeFpPart i v).cid = s.cid := by
  unfold State.writeFpPart; split <;> rfl
@[simp] theorem State.writeFpPart_pid {w : Nat} (s : State) (i : RegNum) (v : BitVec w) :
    (s.writeFpPart i v).pid = s.pid := by
  unfold State.writeFpPart; split <;> rfl
@[simp] theorem State.writeFpPart_scr {w : Nat} (s : State) (i : RegNum) (v : BitVec w) :
    (s.writeFpPart i v).scr = s.scr := by
  unfold State.writeFpPart; split <;> rfl
@[simp] theorem State.writeFpPart_nrp {w : Nat} (s : State) (i : RegNum) (v : BitVec w) :
    (s.writeFpPart i v).nrp = s.nrp := by
  unfold State.writeFpPart; split <;> rfl
@[simp] theorem State.writeFpPart_erp {w : Nat} (s : State) (i : RegNum) (v : BitVec w) :
    (s.writeFpPart i v).erp = s.erp := by
  unfold State.writeFpPart; split <;> rfl
@[simp] theorem State.writeFpPart_ucr {w : Nat} (s : State) (i : RegNum) (v : BitVec w) :
    (s.writeFpPart i v).ucr = s.ucr := by
  unfold State.writeFpPart; split <;> rfl
@[simp] theorem State.writeFpPart_crp {w : Nat} (s : State) (i : RegNum) (v : BitVec w) :
    (s.writeFpPart i v).crp = s.crp := by
  unfold State.writeFpPart; split <;> rfl
@[simp] theorem State.writeFpPart_irp {w : Nat} (s : State) (i : RegNum) (v : BitVec w) :
    (s.writeFpPart i v).irp = s.irp := by
  unfold State.writeFpPart; split <;> rfl
@[simp] theorem State.writeFpPart_dcr {w : Nat} (s : State) (i : RegNum) (v : BitVec w) :
    (s.writeFpPart i v).dcr = s.dcr := by
  unfold State.writeFpPart; split <;> rfl
@[simp] theorem State.writeFpPart_run {w : Nat} (s : State) (i : RegNum) (v : BitVec w) :
    (s.writeFpPart i v).run = s.run := by
  unfold State.writeFpPart; split <;> rfl
@[simp] theorem State.writeFpPart_waitTimer {w : Nat} (s : State) (i : RegNum) (v : BitVec w) :
    (s.writeFpPart i v).waitTimer = s.waitTimer := by
  unfold State.writeFpPart; split <;> rfl
@[simp] theorem State.writeFpPart_resv {w : Nat} (s : State) (i : RegNum) (v : BitVec w) :
    (s.writeFpPart i v).resv = s.resv := by
  unfold State.writeFpPart; split <;> rfl
@[simp] theorem State.writeFpPart_nmiPending {w : Nat} (s : State) (i : RegNum) (v : BitVec w) :
    (s.writeFpPart i v).nmiPending = s.nmiPending := by
  unfold State.writeFpPart; split <;> rfl
@[simp] theorem State.writeFpPart_irqPending {w : Nat} (s : State) (i : RegNum) (v : BitVec w) :
    (s.writeFpPart i v).irqPending = s.irqPending := by
  unfold State.writeFpPart; split <;> rfl
@[simp] theorem State.writeFpPart_savExc {w : Nat} (s : State) (i : RegNum) (v : BitVec w) :
    (s.writeFpPart i v).savExc = s.savExc := by
  unfold State.writeFpPart; split <;> rfl
@[simp] theorem State.writeFpPart_savNmi {w : Nat} (s : State) (i : RegNum) (v : BitVec w) :
    (s.writeFpPart i v).savNmi = s.savNmi := by
  unfold State.writeFpPart; split <;> rfl
@[simp] theorem State.writeFpPart_savIrq {w : Nat} (s : State) (i : RegNum) (v : BitVec w) :
    (s.writeFpPart i v).savIrq = s.savIrq := by
  unfold State.writeFpPart; split <;> rfl
@[simp] theorem State.writeFpPart_error {w : Nat} (s : State) (i : RegNum) (v : BitVec w) :
    (s.writeFpPart i v).error = s.error := by
  unfold State.writeFpPart; split <;> rfl
@[simp] theorem State.writeFpPart_ir {w : Nat} (s : State) (i : RegNum) (v : BitVec w) :
    (s.writeFpPart i v).ir = s.ir := by
  unfold State.writeFpPart; split <;> rfl
@[simp] theorem State.writeFpPart_abandoned {w : Nat} (s : State) (i : RegNum) (v : BitVec w) :
    (s.writeFpPart i v).abandoned = s.abandoned := by
  unfold State.writeFpPart; split <;> rfl
@[simp] theorem State.writeFpPart_maySucceed {w : Nat} (s : State) (i : RegNum) (v : BitVec w) :
    (s.writeFpPart i v).maySucceed = s.maySucceed := by
  unfold State.writeFpPart; split <;> rfl
@[simp] theorem State.writeFpPart_fetchFault {w : Nat} (s : State) (i : RegNum) (v : BitVec w) :
    (s.writeFpPart i v).fetchFault = s.fetchFault := by
  unfold State.writeFpPart; split <;> rfl
@[simp] theorem State.writeFpPart_dataFault {w : Nat} (s : State) (i : RegNum) (v : BitVec w) :
    (s.writeFpPart i v).dataFault = s.dataFault := by
  unfold State.writeFpPart; split <;> rfl
@[simp] theorem State.writeFpPart_freeCount {w : Nat} (s : State) (i : RegNum) (v : BitVec w) :
    (s.writeFpPart i v).freeCount = s.freeCount := by
  unfold State.writeFpPart; split <;> rfl
@[simp] theorem State.writeFpPart_inputs {w : Nat} (s : State) (i : RegNum) (v : BitVec w) :
    (s.writeFpPart i v).inputs = s.inputs := by
  unfold State.writeFpPart; split <;> rfl

/-! ## `State.applyIndex` -/

@[simp] theorem State.applyIndex_cfg {w : Nat} (s : State) (x : Option (RegNum × BitVec w)) :
    (s.applyIndex x).cfg = s.cfg := by
  cases x <;> rfl
@[simp] theorem State.applyIndex_dsp {w : Nat} (s : State) (x : Option (RegNum × BitVec w)) :
    (s.applyIndex x).dsp = s.dsp := by
  cases x <;> rfl
@[simp] theorem State.applyIndex_fpr {w : Nat} (s : State) (x : Option (RegNum × BitVec w)) :
    (s.applyIndex x).fpr = s.fpr := by
  cases x <;> rfl
@[simp] theorem State.applyIndex_extra {w : Nat} (s : State) (x : Option (RegNum × BitVec w)) :
    (s.applyIndex x).extra = s.extra := by
  cases x <;> rfl
@[simp] theorem State.applyIndex_mem {w : Nat} (s : State) (x : Option (RegNum × BitVec w)) :
    (s.applyIndex x).mem = s.mem := by
  cases x <;> rfl
@[simp] theorem State.applyIndex_ic {w : Nat} (s : State) (x : Option (RegNum × BitVec w)) :
    (s.applyIndex x).ic = s.ic := by
  cases x <;> rfl
@[simp] theorem State.applyIndex_est {w : Nat} (s : State) (x : Option (RegNum × BitVec w)) :
    (s.applyIndex x).est = s.est := by
  cases x <;> rfl
@[simp] theorem State.applyIndex_exi {w : Nat} (s : State) (x : Option (RegNum × BitVec w)) :
    (s.applyIndex x).exi = s.exi := by
  cases x <;> rfl
@[simp] theorem State.applyIndex_exc {w : Nat} (s : State) (x : Option (RegNum × BitVec w)) :
    (s.applyIndex x).exc = s.exc := by
  cases x <;> rfl
@[simp] theorem State.applyIndex_exm {w : Nat} (s : State) (x : Option (RegNum × BitVec w)) :
    (s.applyIndex x).exm = s.exm := by
  cases x <;> rfl
@[simp] theorem State.applyIndex_etb {w : Nat} (s : State) (x : Option (RegNum × BitVec w)) :
    (s.applyIndex x).etb = s.etb := by
  cases x <;> rfl
@[simp] theorem State.applyIndex_itb {w : Nat} (s : State) (x : Option (RegNum × BitVec w)) :
    (s.applyIndex x).itb = s.itb := by
  cases x <;> rfl
@[simp] theorem State.applyIndex_cid {w : Nat} (s : State) (x : Option (RegNum × BitVec w)) :
    (s.applyIndex x).cid = s.cid := by
  cases x <;> rfl
@[simp] theorem State.applyIndex_pid {w : Nat} (s : State) (x : Option (RegNum × BitVec w)) :
    (s.applyIndex x).pid = s.pid := by
  cases x <;> rfl
@[simp] theorem State.applyIndex_scr {w : Nat} (s : State) (x : Option (RegNum × BitVec w)) :
    (s.applyIndex x).scr = s.scr := by
  cases x <;> rfl
@[simp] theorem State.applyIndex_nrp {w : Nat} (s : State) (x : Option (RegNum × BitVec w)) :
    (s.applyIndex x).nrp = s.nrp := by
  cases x <;> rfl
@[simp] theorem State.applyIndex_erp {w : Nat} (s : State) (x : Option (RegNum × BitVec w)) :
    (s.applyIndex x).erp = s.erp := by
  cases x <;> rfl
@[simp] theorem State.applyIndex_ucr {w : Nat} (s : State) (x : Option (RegNum × BitVec w)) :
    (s.applyIndex x).ucr = s.ucr := by
  cases x <;> rfl
@[simp] theorem State.applyIndex_crp {w : Nat} (s : State) (x : Option (RegNum × BitVec w)) :
    (s.applyIndex x).crp = s.crp := by
  cases x <;> rfl
@[simp] theorem State.applyIndex_irp {w : Nat} (s : State) (x : Option (RegNum × BitVec w)) :
    (s.applyIndex x).irp = s.irp := by
  cases x <;> rfl
@[simp] theorem State.applyIndex_dcr {w : Nat} (s : State) (x : Option (RegNum × BitVec w)) :
    (s.applyIndex x).dcr = s.dcr := by
  cases x <;> rfl
@[simp] theorem State.applyIndex_run {w : Nat} (s : State) (x : Option (RegNum × BitVec w)) :
    (s.applyIndex x).run = s.run := by
  cases x <;> rfl
@[simp] theorem State.applyIndex_waitTimer {w : Nat} (s : State) (x : Option (RegNum × BitVec w)) :
    (s.applyIndex x).waitTimer = s.waitTimer := by
  cases x <;> rfl
@[simp] theorem State.applyIndex_resv {w : Nat} (s : State) (x : Option (RegNum × BitVec w)) :
    (s.applyIndex x).resv = s.resv := by
  cases x <;> rfl
@[simp] theorem State.applyIndex_nmiPending {w : Nat} (s : State) (x : Option (RegNum × BitVec w)) :
    (s.applyIndex x).nmiPending = s.nmiPending := by
  cases x <;> rfl
@[simp] theorem State.applyIndex_irqPending {w : Nat} (s : State) (x : Option (RegNum × BitVec w)) :
    (s.applyIndex x).irqPending = s.irqPending := by
  cases x <;> rfl
@[simp] theorem State.applyIndex_savExc {w : Nat} (s : State) (x : Option (RegNum × BitVec w)) :
    (s.applyIndex x).savExc = s.savExc := by
  cases x <;> rfl
@[simp] theorem State.applyIndex_savNmi {w : Nat} (s : State) (x : Option (RegNum × BitVec w)) :
    (s.applyIndex x).savNmi = s.savNmi := by
  cases x <;> rfl
@[simp] theorem State.applyIndex_savIrq {w : Nat} (s : State) (x : Option (RegNum × BitVec w)) :
    (s.applyIndex x).savIrq = s.savIrq := by
  cases x <;> rfl
@[simp] theorem State.applyIndex_error {w : Nat} (s : State) (x : Option (RegNum × BitVec w)) :
    (s.applyIndex x).error = s.error := by
  cases x <;> rfl
@[simp] theorem State.applyIndex_ir {w : Nat} (s : State) (x : Option (RegNum × BitVec w)) :
    (s.applyIndex x).ir = s.ir := by
  cases x <;> rfl
@[simp] theorem State.applyIndex_abandoned {w : Nat} (s : State) (x : Option (RegNum × BitVec w)) :
    (s.applyIndex x).abandoned = s.abandoned := by
  cases x <;> rfl
@[simp] theorem State.applyIndex_maySucceed {w : Nat} (s : State) (x : Option (RegNum × BitVec w)) :
    (s.applyIndex x).maySucceed = s.maySucceed := by
  cases x <;> rfl
@[simp] theorem State.applyIndex_fetchFault {w : Nat} (s : State) (x : Option (RegNum × BitVec w)) :
    (s.applyIndex x).fetchFault = s.fetchFault := by
  cases x <;> rfl
@[simp] theorem State.applyIndex_dataFault {w : Nat} (s : State) (x : Option (RegNum × BitVec w)) :
    (s.applyIndex x).dataFault = s.dataFault := by
  cases x <;> rfl
@[simp] theorem State.applyIndex_freeCount {w : Nat} (s : State) (x : Option (RegNum × BitVec w)) :
    (s.applyIndex x).freeCount = s.freeCount := by
  cases x <;> rfl
@[simp] theorem State.applyIndex_inputs {w : Nat} (s : State) (x : Option (RegNum × BitVec w)) :
    (s.applyIndex x).inputs = s.inputs := by
  cases x <;> rfl

/-! ## `State.writeSpc`: what it leaves -/

@[simp] theorem State.writeSpc_cfg {w : Nat} (s : State) (i : RegNum) (v : BitVec w) :
    (s.writeSpc i v).cfg = s.cfg := rfl
@[simp] theorem State.writeSpc_gpr {w : Nat} (s : State) (i : RegNum) (v : BitVec w) :
    (s.writeSpc i v).gpr = s.gpr := rfl
@[simp] theorem State.writeSpc_dsp {w : Nat} (s : State) (i : RegNum) (v : BitVec w) :
    (s.writeSpc i v).dsp = s.dsp := rfl
@[simp] theorem State.writeSpc_fpr {w : Nat} (s : State) (i : RegNum) (v : BitVec w) :
    (s.writeSpc i v).fpr = s.fpr := rfl
@[simp] theorem State.writeSpc_extra {w : Nat} (s : State) (i : RegNum) (v : BitVec w) :
    (s.writeSpc i v).extra = s.extra := rfl
@[simp] theorem State.writeSpc_mem {w : Nat} (s : State) (i : RegNum) (v : BitVec w) :
    (s.writeSpc i v).mem = s.mem := rfl
@[simp] theorem State.writeSpc_ic {w : Nat} (s : State) (i : RegNum) (v : BitVec w) :
    (s.writeSpc i v).ic = s.ic := rfl
@[simp] theorem State.writeSpc_run {w : Nat} (s : State) (i : RegNum) (v : BitVec w) :
    (s.writeSpc i v).run = s.run := rfl
@[simp] theorem State.writeSpc_waitTimer {w : Nat} (s : State) (i : RegNum) (v : BitVec w) :
    (s.writeSpc i v).waitTimer = s.waitTimer := rfl
@[simp] theorem State.writeSpc_resv {w : Nat} (s : State) (i : RegNum) (v : BitVec w) :
    (s.writeSpc i v).resv = s.resv := rfl
@[simp] theorem State.writeSpc_nmiPending {w : Nat} (s : State) (i : RegNum) (v : BitVec w) :
    (s.writeSpc i v).nmiPending = s.nmiPending := rfl
@[simp] theorem State.writeSpc_irqPending {w : Nat} (s : State) (i : RegNum) (v : BitVec w) :
    (s.writeSpc i v).irqPending = s.irqPending := rfl
@[simp] theorem State.writeSpc_savExc {w : Nat} (s : State) (i : RegNum) (v : BitVec w) :
    (s.writeSpc i v).savExc = s.savExc := rfl
@[simp] theorem State.writeSpc_savNmi {w : Nat} (s : State) (i : RegNum) (v : BitVec w) :
    (s.writeSpc i v).savNmi = s.savNmi := rfl
@[simp] theorem State.writeSpc_savIrq {w : Nat} (s : State) (i : RegNum) (v : BitVec w) :
    (s.writeSpc i v).savIrq = s.savIrq := rfl
@[simp] theorem State.writeSpc_error {w : Nat} (s : State) (i : RegNum) (v : BitVec w) :
    (s.writeSpc i v).error = s.error := rfl
@[simp] theorem State.writeSpc_ir {w : Nat} (s : State) (i : RegNum) (v : BitVec w) :
    (s.writeSpc i v).ir = s.ir := rfl
@[simp] theorem State.writeSpc_abandoned {w : Nat} (s : State) (i : RegNum) (v : BitVec w) :
    (s.writeSpc i v).abandoned = s.abandoned := rfl
@[simp] theorem State.writeSpc_maySucceed {w : Nat} (s : State) (i : RegNum) (v : BitVec w) :
    (s.writeSpc i v).maySucceed = s.maySucceed := rfl
@[simp] theorem State.writeSpc_fetchFault {w : Nat} (s : State) (i : RegNum) (v : BitVec w) :
    (s.writeSpc i v).fetchFault = s.fetchFault := rfl
@[simp] theorem State.writeSpc_dataFault {w : Nat} (s : State) (i : RegNum) (v : BitVec w) :
    (s.writeSpc i v).dataFault = s.dataFault := rfl
@[simp] theorem State.writeSpc_freeCount {w : Nat} (s : State) (i : RegNum) (v : BitVec w) :
    (s.writeSpc i v).freeCount = s.freeCount := rfl
@[simp] theorem State.writeSpc_inputs {w : Nat} (s : State) (i : RegNum) (v : BitVec w) :
    (s.writeSpc i v).inputs = s.inputs := rfl

/-! ## `State.undetermined`: what it leaves -/

@[simp] theorem State.undetermined_cfg (s : State) : s.undetermined.cfg = s.cfg := rfl
@[simp] theorem State.undetermined_run (s : State) : s.undetermined.run = s.run := rfl
@[simp] theorem State.undetermined_waitTimer (s : State) : s.undetermined.waitTimer = s.waitTimer := rfl
@[simp] theorem State.undetermined_resv (s : State) : s.undetermined.resv = s.resv := rfl
@[simp] theorem State.undetermined_nmiPending (s : State) : s.undetermined.nmiPending = s.nmiPending := rfl
@[simp] theorem State.undetermined_irqPending (s : State) : s.undetermined.irqPending = s.irqPending := rfl
@[simp] theorem State.undetermined_savExc (s : State) : s.undetermined.savExc = s.savExc := rfl
@[simp] theorem State.undetermined_savNmi (s : State) : s.undetermined.savNmi = s.savNmi := rfl
@[simp] theorem State.undetermined_savIrq (s : State) : s.undetermined.savIrq = s.savIrq := rfl
@[simp] theorem State.undetermined_error (s : State) : s.undetermined.error = s.error := rfl
@[simp] theorem State.undetermined_ir (s : State) : s.undetermined.ir = s.ir := rfl
@[simp] theorem State.undetermined_abandoned (s : State) : s.undetermined.abandoned = s.abandoned := rfl
@[simp] theorem State.undetermined_maySucceed (s : State) : s.undetermined.maySucceed = s.maySucceed := rfl
@[simp] theorem State.undetermined_fetchFault (s : State) : s.undetermined.fetchFault = s.fetchFault := rfl
@[simp] theorem State.undetermined_dataFault (s : State) : s.undetermined.dataFault = s.dataFault := rfl
@[simp] theorem State.undetermined_freeCount (s : State) : s.undetermined.freeCount = s.freeCount := rfl
@[simp] theorem State.undetermined_inputs (s : State) : s.undetermined.inputs = s.inputs := rfl

end Sys2Proof.Machine
end

