-- ==== Sys2Proof/Laws/Memory.lean ====
section
/-! SUPPORT. Memory: a read after a write, the bytes a write leaves, the canonical form that every memory operation
keeps, the bytes of a value, and what an access that completes looks like. -/
namespace Sys2Proof.Machine

/-! ## The canonical form -/

theorem Memory.wfFrom_mono {lo lo' : Nat} {m : Memory} (h : Memory.wfFrom lo m = true) (hl : lo' ≤ lo) :
    Memory.wfFrom lo' m = true := by
  cases m with
  | nil => rfl
  | cons c t => simp only [Memory.wfFrom, Bool.and_eq_true, decide_eq_true_eq] at h ⊢; exact ⟨⟨by omega, h.1.2⟩, h.2⟩

theorem Memory.wfFrom_cons {lo k : Nat} {v : Byte} {t : Memory} :
    Memory.wfFrom lo ((k, v) :: t) = true ↔ lo ≤ k ∧ v ≠ 0 ∧ Memory.wfFrom (k + 1) t = true := by
  simp [Memory.wfFrom, and_assoc]

/-- An address below every listed one reads as zero. -/
theorem memByte_of_lt {lo a : Nat} {m : Memory} (h : Memory.wfFrom lo m = true) (ha : a < lo) : memByte m a = 0 := by
  induction m generalizing lo with
  | nil => rfl
  | cons c t ih =>
    obtain ⟨k, v⟩ := c
    obtain ⟨h1, -, h3⟩ := Memory.wfFrom_cons.1 h
    simp only [memByte]
    rw [if_neg (by omega)]
    exact ih h3 (by omega)

theorem Memory.wfFrom_memSet {lo : Nat} {m : Memory} {a : Nat} {b : Byte} (h : Memory.wfFrom lo m = true) (ha : lo ≤ a) :
    Memory.wfFrom lo (memSet m a b) = true := by
  induction m generalizing lo with
  | nil =>
    simp only [memSet]
    split
    · rfl
    · exact Memory.wfFrom_cons.2 ⟨ha, ‹_›, rfl⟩
  | cons c t ih =>
    obtain ⟨k, v⟩ := c
    obtain ⟨h1, h2, h3⟩ := Memory.wfFrom_cons.1 h
    simp only [memSet]
    split
    · split
      · exact h
      · exact Memory.wfFrom_cons.2 ⟨ha, ‹_›, Memory.wfFrom_cons.2 ⟨by omega, h2, h3⟩⟩
    · split
      · subst_vars
        split
        · exact Memory.wfFrom_mono h3 (by omega)
        · exact Memory.wfFrom_cons.2 ⟨h1, ‹_›, h3⟩
      · exact Memory.wfFrom_cons.2 ⟨h1, h2, ih h3 (by omega)⟩

/-- Writing one byte keeps the canonical form. -/
theorem Memory.wf_memSet {m : Memory} (h : Memory.wf m = true) (a : Nat) (b : Byte) : Memory.wf (memSet m a b) = true :=
  Memory.wfFrom_memSet h (Nat.zero_le a)

/-- Writing bytes keeps the canonical form. -/
theorem Memory.wf_memSetAll {m : Memory} (h : Memory.wf m = true) (as : List Nat) (bs : List Byte) :
    Memory.wf (memSetAll m as bs) = true := by
  induction as generalizing m bs with
  | nil => simpa [memSetAll] using h
  | cons a as ih =>
    cases bs with
    | nil => simpa [memSetAll] using h
    | cons b bs => exact ih (Memory.wf_memSet h a b) bs

/-- Every memory of a store that completes is in canonical form. -/
theorem State.wf_of_memWrite {w : Nat} {s t : State} {a : Nat} {v : BitVec w} (h : s.memWrite a v = some t)
    (hs : Memory.wf s.mem = true) : Memory.wf t.mem = true := by
  simp only [State.memWrite, Option.map_eq_some_iff] at h
  obtain ⟨ps, -, rfl⟩ := h
  exact Memory.wf_memSetAll hs _ _

/-- A write of another agent keeps the canonical form. -/
theorem State.wf_externalWrite {s : State} (c : Host.Cell) (hs : Memory.wf s.mem = true) :
    Memory.wf (s.externalWrite c).mem = true := Memory.wf_memSet hs _ _

/-- Placing an instruction word keeps the canonical form. -/
theorem State.wf_withFetchWord {s : State} (nbits w : Nat) (hs : Memory.wf s.mem = true) :
    Memory.wf (s.withFetchWord nbits w).mem = true := by
  unfold State.withFetchWord
  split
  · exact Memory.wf_memSetAll hs _ _
  · exact hs

/-- Memory after reset is in canonical form. -/
theorem State.wf_reset : Memory.wf State.reset.mem = true := rfl

theorem Memory.below_memSet {top : Nat} {m : Memory} (h : Memory.below top m = true) {a : Nat} (ha : a < top) (b : Byte) :
    Memory.below top (memSet m a b) = true := by
  induction m with
  | nil => simp only [memSet]; split <;> simp [Memory.below, ha]
  | cons c t ih =>
    obtain ⟨k, v⟩ := c
    simp only [Memory.below, List.all_cons, Bool.and_eq_true, decide_eq_true_eq] at h ih ⊢
    have hi := ih h.2
    simp only [memSet]
    split
    · split <;> simp [List.all_cons, ha, h.1, h.2]
    · split
      · split <;> simp [List.all_cons, ha, h.2]
      · simp [List.all_cons, h.1, hi]

theorem Memory.below_memSetAll {top : Nat} {m : Memory} (h : Memory.below top m = true) {as : List Nat}
    (ha : ∀ a ∈ as, a < top) (bs : List Byte) : Memory.below top (memSetAll m as bs) = true := by
  induction as generalizing m bs with
  | nil => simpa [memSetAll] using h
  | cons a as ih =>
    cases bs with
    | nil => simpa [memSetAll] using h
    | cons b bs =>
      exact ih (Memory.below_memSet h (ha a List.mem_cons_self) b) (fun x hx => ha x (List.mem_cons_of_mem a hx)) bs

/-! ## Reads after writes -/

/-- The memory of a stuck core is in canonical form inside the address space (60_exceptions.md R474). -/
theorem freeMem_wf_below (step paw : Nat) :
    Memory.wf (freeMem step paw) = true ∧ Memory.below (2 ^ paw) (freeMem step paw) = true := by
  unfold freeMem
  generalize Config.freeMemory step = cells
  suffices h : ∀ m : Memory, Memory.wf m = true ∧ Memory.below (2 ^ paw) m = true →
      Memory.wf (cells.foldl (fun m c => memSet m (c.1 % 2 ^ paw) c.2) m) = true ∧
        Memory.below (2 ^ paw) (cells.foldl (fun m c => memSet m (c.1 % 2 ^ paw) c.2) m) = true from h [] ⟨rfl, rfl⟩
  induction cells with
  | nil => exact fun _ h => h
  | cons c cells ih =>
    exact fun m h => ih _ ⟨Memory.wf_memSet h.1 _ _, Memory.below_memSet h.2 (Nat.mod_lt _ (Nat.two_pow_pos _)) _⟩

/-- A byte read after it was written. -/
theorem memByte_memSet_same {m : Memory} (h : Memory.wf m = true) (a : Nat) (b : Byte) : memByte (memSet m a b) a = b := by
  suffices ∀ lo, Memory.wfFrom lo m = true → memByte (memSet m a b) a = b from this 0 h
  clear h
  induction m with
  | nil =>
    intro lo _
    simp only [memSet]
    split
    · subst_vars; rfl
    · simp [memByte]
  | cons c t ih =>
    intro lo h
    obtain ⟨k, v⟩ := c
    obtain ⟨h1, h2, h3⟩ := Memory.wfFrom_cons.1 h
    simp only [memSet]
    split
    · split
      · subst_vars
        simp only [memByte]
        rw [if_neg (by omega)]
        exact memByte_of_lt h3 (by omega)
      · simp [memByte]
    · split
      · subst_vars
        split
        · subst_vars; exact memByte_of_lt h3 (by omega)
        · simp [memByte]
      · simp only [memByte]
        rw [if_neg (by omega)]
        exact ih _ h3

/-- A byte read after another one was written. -/
theorem memByte_memSet_other (m : Memory) {a x : Nat} (b : Byte) (hx : x ≠ a) :
    memByte (memSet m a b) x = memByte m x := by
  induction m with
  | nil => simp only [memSet]; split <;> simp [memByte, Ne.symm hx]
  | cons c t ih =>
    obtain ⟨k, v⟩ := c
    simp only [memSet]
    split
    · split
      · rfl
      · simp [memByte, Ne.symm hx]
    · split
      · subst_vars
        split <;> simp [memByte, Ne.symm hx]
      · simp [memByte, ih]

/-- The bytes outside the addresses written keep their value. -/
theorem memByte_memSetAll_other {m : Memory} {as : List Nat} (bs : List Byte) {x : Nat} (hx : x ∉ as) :
    memByte (memSetAll m as bs) x = memByte m x := by
  induction as generalizing m bs with
  | nil => simp [memSetAll]
  | cons a as ih =>
    cases bs with
    | nil => simp [memSetAll]
    | cons b bs =>
      simp only [List.mem_cons, not_or] at hx
      simp only [memSetAll]
      rw [ih bs hx.2, memByte_memSet_other _ _ hx.1]

/-- The bytes written at different addresses are read back in order. -/
theorem map_memByte_memSetAll {m : Memory} (h : Memory.wf m = true) {as : List Nat} {bs : List Byte}
    (hl : as.length = bs.length) (hd : as.Nodup) : as.map (memByte (memSetAll m as bs)) = bs := by
  induction as generalizing m bs with
  | nil => cases bs with
    | nil => rfl
    | cons b bs => simp at hl
  | cons a as ih =>
    cases bs with
    | nil => simp at hl
    | cons b bs =>
      simp only [List.nodup_cons] at hd
      simp only [memSetAll, List.map_cons]
      rw [ih (Memory.wf_memSet h a b) (by simpa using hl) hd.2, memByte_memSetAll_other _ hd.1, memByte_memSet_same h]

/-! ## The bytes of a value -/

@[simp] theorem leBytes_length (n v : Nat) : (leBytes n v).length = n := by
  induction n generalizing v with
  | zero => rfl
  | succ n ih => simp [leBytes, ih]

@[simp] theorem bytesOfValue_length (e : Endian) (n v : Nat) : (bytesOfValue e n v).length = n := by
  cases e <;> simp [bytesOfValue]

/-- Bytes and value are inverse, modulo the width. -/
theorem leValue_leBytes (n v : Nat) : leValue (leBytes n v) = v % 256 ^ n := by
  induction n generalizing v with
  | zero => simp [leBytes, leValue, Nat.mod_one]
  | succ n ih =>
    simp only [leBytes, leValue, ih, BitVec.toNat_ofNat]
    rw [show (256 : Nat) ^ (n + 1) = 256 * 256 ^ n from by ring, Nat.mod_mul]

theorem valueOfBytes_bytesOfValue (e : Endian) (n v : Nat) : valueOfBytes e (bytesOfValue e n v) = v % 256 ^ n := by
  cases e <;> simp [valueOfBytes, bytesOfValue, leValue_leBytes]

/-! ## Accesses -/

/-- A range of accesses that completes has one physical address for each byte. -/
theorem State.physRange_length {s : State} {k : AccessKind} {a n : Nat} {ps : List Nat} (h : s.physRange k a n = some ps) :
    ps.length = n := by
  induction n generalizing a ps with
  | zero => simp [State.physRange] at h; simp [← h]
  | succ n ih =>
    simp only [State.physRange] at h
    split at h
    · rename_i p qs hp hq
      obtain rfl := Option.some.inj h
      simp [ih hq]
    · cases h

/-- A physical address lies in the physical address space. -/
theorem State.phys_lt {s : State} {k : AccessKind} {a p : Nat} (h : s.phys k a = some p) : p < 2 ^ s.cfg.paw := by
  have hp : 0 < 2 ^ s.cfg.paw := Nat.two_pow_pos _
  have key : ∀ (x : Nat) (y : Bool) (z : BitVec 64), Config.translate s.cfg y z (x % 2 ^ s.cfg.paw) k = some p →
      p < 2 ^ s.cfg.paw := by
    intro x y z hx
    simp only [Config.translate] at hx
    split at hx
    · obtain rfl := Option.some.inj hx; exact Nat.mod_lt _ hp
    · rename_i e he
      simp only [Option.map_eq_some_iff] at hx
      obtain ⟨b, -, rfl⟩ := hx
      exact Nat.mod_lt _ hp
  have main : ∀ c : Bool, (if c = true then none else Config.translate s.cfg s.systemMode s.process (a % 2 ^ s.cfg.paw) k) =
      some p → p < 2 ^ s.cfg.paw := by
    intro c hc
    split at hc
    · cases hc
    · exact key _ _ _ hc
  exact main _ h

theorem State.physRange_lt {s : State} {k : AccessKind} {a n : Nat} {ps : List Nat} (h : s.physRange k a n = some ps) :
    ∀ p ∈ ps, p < 2 ^ s.cfg.paw := by
  induction n generalizing a ps with
  | zero => intro x hx; simp only [State.physRange, Option.some.injEq] at h; simp [← h] at hx
  | succ n ih =>
    simp only [State.physRange] at h
    split at h
    · rename_i p qs hp hq
      obtain rfl := Option.some.inj h
      intro x hx
      rcases List.mem_cons.1 hx with rfl | hx
      · exact State.phys_lt hp
      · exact ih hq x hx
    · cases h

/-- A store that completes: everything it can do. -/
theorem State.memWrite_cases {w : Nat} {s t : State} {a : Nat} {v : BitVec w} (h : s.memWrite a v = some t) :
    ∃ ps, s.physRange .write a (w / 8) = some ps ∧
      t = { s with mem := memSetAll s.mem ps (bytesOfValue s.cfg.endian (w / 8) v.toNat) } := by
  simp only [State.memWrite, Option.map_eq_some_iff] at h
  obtain ⟨ps, hp, rfl⟩ := h
  exact ⟨ps, hp, rfl⟩

/-- A load that completes: everything it can be. -/
theorem State.memRead_cases {s : State} {k : AccessKind} {a w : Nat} {v : BitVec w} (h : s.memRead k a w = some v) :
    ∃ ps, s.physRange k a (w / 8) = some ps ∧
      v = BitVec.ofNat w (valueOfBytes s.cfg.endian (ps.map (memByte s.mem))) := by
  simp only [State.memRead, Option.map_eq_some_iff] at h
  obtain ⟨ps, hp, rfl⟩ := h
  exact ⟨ps, hp, rfl⟩

/-- Without an address map and without a failing bus every byte of the address space is accessible at itself. -/
theorem State.phys_identity {s : State} (ht : s.cfg.translation = []) (hf : s.fetchFault = false)
    (hd : s.dataFault = false) (k : AccessKind) (a : Nat) : s.phys k a = some (a % 2 ^ s.cfg.paw) := by
  cases k <;> simp [State.phys, Config.translate, ht, hf, hd]

end Sys2Proof.Machine
end

