-- ==== Sys2Proof/Laws/Ops.lean ====
section
/-! SUPPORT. For each shared operation, one lemma that says once what it can do: the checks, the raise protocol, the
instruction counter, the operands, the forms of a memory transfer, the transfers of implementation-specific files, the
stuck core, hardware-raised exceptions. -/
namespace Sys2Proof.Machine

/-! ## Exceptions -/

theorem excBit_ne_zero {n : Nat} (h : n < 64) : excBit n ≠ 0 := by
  unfold excBit
  interval_cases n <;> decide

/-- A mask is potent exactly where exceptions are enabled and some bit of it is not masked (R451). -/
theorem State.potent_iff (s : State) (mask : BitVec 64) :
    s.potent mask = true ↔ s.scr.getLsbD 2 = true ∧ ∃ n, n < 64 ∧ mask.getLsbD n = true ∧ s.exm.getLsbD n = false := by
  have h : (mask &&& ~~~s.exm ≠ 0) ↔ ∃ n, n < 64 ∧ mask.getLsbD n = true ∧ s.exm.getLsbD n = false := by
    constructor
    · intro h
      by_contra hc
      push Not at hc
      refine h (BitVec.eq_of_getLsbD_eq fun i hi => ?_)
      have := hc i hi
      simp only [BitVec.getLsbD_and, BitVec.getLsbD_not, hi, decide_true, Bool.true_and]
      cases hm : mask.getLsbD i
      · simp
      · have := this hm
        simp at this
        simp [this]
    · rintro ⟨n, hn, hm, he⟩ hz
      have := congrArg (fun x => BitVec.getLsbD x n) hz
      simp only [BitVec.getLsbD_and, BitVec.getLsbD_not, hn, decide_true, Bool.true_and, hm, he] at this
      simp at this
  unfold State.potent State.excEnabled
  simp only [Bool.and_eq_true, bne_iff_ne, ne_eq]
  exact and_congr_right fun _ => h

/-- What the raise protocol can do (R452). -/
theorem State.raise_cases (s : State) (mask : BitVec 64) (writeBack : State → State) :
    (s.potent mask = true ∧ s.raise mask writeBack = { (s.note mask).advance with abandoned := true }) ∨
    (s.potent mask = false ∧ s.raise mask writeBack = (writeBack (s.note mask)).advance) := by
  unfold State.raise
  cases h : s.potent mask <;> simp

theorem State.raise_potent {s : State} {mask : BitVec 64} (writeBack : State → State) (h : s.potent mask = true) :
    s.raise mask writeBack = { (s.note mask).advance with abandoned := true } := if_pos h

theorem State.raise_impotent {s : State} {mask : BitVec 64} (writeBack : State → State) (h : s.potent mask = false) :
    s.raise mask writeBack = (writeBack (s.note mask)).advance := if_neg (by simp [h])

/-- What the end of an instruction can do (R452, R314). -/
theorem State.complete_cases (s : State) (mask : BitVec 64) (writeBack : State → State) :
    (mask = 0 ∧ s.complete mask writeBack = (writeBack s).advance) ∨
    (mask ≠ 0 ∧ s.complete mask writeBack = s.raise mask writeBack) := by
  unfold State.complete
  by_cases h : mask = 0
  · exact .inl ⟨h, if_pos h⟩
  · exact .inr ⟨h, if_neg h⟩

theorem State.complete_zero (s : State) (writeBack : State → State) : s.complete 0 writeBack = (writeBack s).advance :=
  if_pos rfl

theorem State.complete_impotent {s : State} {mask : BitVec 64} (writeBack : State → State) (hm : mask ≠ 0)
    (h : s.potent mask = false) : s.complete mask writeBack = (writeBack (s.note mask)).advance :=
  (if_neg hm).trans (State.raise_impotent writeBack h)

theorem State.complete_potent {s : State} {mask : BitVec 64} (writeBack : State → State) (hm : mask ≠ 0)
    (h : s.potent mask = true) : s.complete mask writeBack = { (s.note mask).advance with abandoned := true } :=
  (if_neg hm).trans (State.raise_potent writeBack h)

/-- Noting an exception by its number. -/
theorem State.note_excBit (s : State) (n : Nat) : s.note (excBit n) = s.noted n := rfl

/-- An instruction abandoned by a potent exception is one that is skipped. -/
theorem State.abandoned_eq_skipped {s : State} {n : Nat} (h : s.potent (excBit n) = true) :
    { (s.note (excBit n)).advance with abandoned := true } = s.skipped n := by
  have h' : s.potent (1#64 <<< n) = true := h
  simp only [State.skipped, h', Bool.or_true]
  rfl

/-- What raising an exception whose instruction is skipped does (R452, R453). -/
theorem State.raiseSkip_eq_skipped (s : State) (e : Exc) : s.raiseSkip e = s.skipped e.num := by
  unfold State.raiseSkip
  rcases s.raise_cases (excBit e.num) id with ⟨h, h'⟩ | ⟨h, h'⟩
  · rw [h']
    exact State.abandoned_eq_skipped h
  · have h₂ : s.potent (1#64 <<< e.num) = false := h
    rw [h']
    simp only [State.skipped, h₂, Bool.or_false]
    rfl

/-! ## Checks -/

/-- What the checks of an arithmetic/logic instruction can do (R160). -/
theorem State.checkAlu_cases (s : State) (p q : Bool) (body : State) :
    (p = true ∧ q = true ∧ s.checkAlu p q body = body) ∨
    (p = true ∧ q = false ∧ s.checkAlu p q body = s.skipped 6) ∨
    (p = false ∧ s.checkAlu p q body = s.unimplementedAlu) := by
  cases p <;> cases q <;> simp [State.checkAlu, State.raiseSkip_eq_skipped, Exc.num]

theorem State.checkAlu_pass {s : State} {p q : Bool} (hp : p = true) (hq : q = true) (body : State) :
    s.checkAlu p q body = body := by subst hp hq; rfl

/-- What the checks of a transfer or control instruction can do (R160). -/
theorem State.checkOther_cases (s : State) (p q : Bool) (body : State) :
    (p = true ∧ q = true ∧ s.checkOther p q body = body) ∨
    (p = true ∧ q = false ∧ s.checkOther p q body = s.skipped 6) ∨
    (p = false ∧ s.checkOther p q body = s.skipped 5) := by
  cases p <;> cases q <;> simp [State.checkOther, State.raiseSkip_eq_skipped, Exc.num]

theorem State.checkOther_pass {s : State} {p q : Bool} (hp : p = true) (hq : q = true) (body : State) :
    s.checkOther p q body = body := by subst hp hq; rfl

/-- What the check of a system instruction can do (R460). -/
theorem State.checkSystem_cases (s : State) (body : State) :
    (s.scr.getLsbD 0 = true ∧ s.checkSystem body = body) ∨
    (s.scr.getLsbD 0 = false ∧ s.checkSystem body = s.skipped 3) := by
  unfold State.checkSystem State.systemMode
  cases h : s.scr.getLsbD 0 <;> simp [State.raiseSkip_eq_skipped, Exc.num]

/-- What the check of a new SCR can do (R461). -/
theorem State.checkBank_cases (s : State) (scr : Word) (body : State) :
    (s.badBank scr = false ∧ s.checkBank scr body = body) ∨
    (s.badBank scr = true ∧ s.checkBank scr body = s.skipped 4) := by
  unfold State.checkBank
  cases h : s.badBank scr <;> simp [State.raiseSkip_eq_skipped, Exc.num]

theorem State.badBank_iff (s : State) (scr : Word) :
    s.badBank scr = true ↔
      scr.extractLsb' 4 4 ≠ s.scr.extractLsb' 4 4 ∧ s.cfg.nbanks ≤ (scr.extractLsb' 4 4).toNat := by
  simp [State.badBank]

theorem State.gprsExist_iff (s : State) (rs : List RegNum) :
    s.gprsExist rs = true ↔ ∀ r ∈ rs, r.toNat < s.cfg.ngpr := by
  simp [State.gprsExist]

theorem State.fpsExist_iff (s : State) (rs : List RegNum) :
    s.fpsExist rs = true ↔ ∀ r ∈ rs, r.toNat < Config.fpCount s.cfg := by
  simp [State.fpsExist]

/-! ## The instruction counter -/

/-- IC keeps the low ICW bits (R31). -/
theorem State.icWrap_toNat {s : State} (h : s.cfg.icw ≤ 64) (x : BitVec 64) :
    (s.icWrap x).toNat = x.toNat % 2 ^ s.cfg.icw := by
  have h2 : (2 : Nat) ^ s.cfg.icw ≤ 2 ^ 64 := Nat.pow_le_pow_right (by decide) h
  simp only [State.icWrap, BitVec.toNat_setWidth]
  exact Nat.mod_eq_of_lt (lt_of_lt_of_le (Nat.mod_lt _ (Nat.two_pow_pos _)) h2)

theorem State.icWrap_lt (s : State) (x : BitVec 64) : (s.icWrap x).toNat < 2 ^ s.cfg.icw := by
  simp only [State.icWrap, BitVec.toNat_setWidth]
  exact lt_of_le_of_lt (Nat.mod_le _ _) (Nat.mod_lt _ (Nat.two_pow_pos _))

/-! ## Operands -/

theorem MMode.width_pos (m : MMode) : 0 < m.width := by cases m <;> decide

/-- The integer flags are those of the rule, from the numbers it compares (R44). -/
theorem intFlags_eq_ruleFlags {w k : Nat} (sg : Bool) (a b : BitVec w) (res : BitVec k) :
    intFlags sg a b res = ruleFlags sg a b res := by
  cases sg <;>
    simp [intFlags, compareFlags, ruleFlags, valueOf, BitVec.msb_eq_getLsbD_last, BitVec.ult, BitVec.slt,
      BitVec.toNat_eq, BitVec.toInt_inj]
  all_goals (try refine ⟨?_, ?_⟩)
  all_goals (rw [Bool.eq_iff_iff]; simp [BitVec.toNat_eq])

/-- The two forms of a two-operand instruction as one (R230). -/
theorem State.secondOperand_cases {s : State} {w : Nat} {u : Bool} {rf : RegNum → Instr} {mf : BitVec 14 → Instr}
    {i : Instr} {b : BitVec w} {d : RegNum} (hd : d.toNat < s.cfg.ngpr) (h : s.SecondOperand w u rf mf i b) :
    ∃ src : Src, s.operand w src = b ∧ s.gprsExist (d :: Src.regs src) = true ∧
      ((∃ r, src = .reg r ∧ i = rf r) ∨ (∃ x, src = .imm u x ∧ i = mf x)) := by
  rcases h with ⟨r, rfl, hr, rfl⟩ | ⟨x, rfl, rfl⟩
  · exact ⟨.reg r, rfl, by simp [State.gprsExist, Src.regs, hd, hr], .inl ⟨r, rfl, rfl⟩⟩
  · exact ⟨.imm u x, rfl, by simp [State.gprsExist, Src.regs, hd], .inr ⟨x, rfl, rfl⟩⟩

/-- A two-operand integer instruction that passes its checks (R230). -/
theorem State.integerOp_pass {s : State} {mn : Mnemonic} {m : MMode} {d : RegNum} {src : Src}
    (body : BitVec m.width → BitVec m.width → State) (h₁ : s.cfg.implements mn m = true)
    (h₂ : s.gprsExist (d :: Src.regs src) = true) :
    s.integerOp mn m d src body = body (s.readGpr d m.width) (s.operand m.width src) :=
  State.checkAlu_pass h₁ h₂ _

/-! ## Memory transfers -/

theorem State.checkedTransfer {s : State} {m : MMode} {d : RegNum} {a : Addr} (h : s.TransferReady m d a)
    (body : State) : s.checkOther (s.transferOk m) (s.gprsExist (d :: Addr.regs a)) body = body := by
  refine State.checkOther_pass ?_ ?_ _
  · simpa [State.transferOk, MMode.le] using h.1
  · simpa [State.gprsExist] using ⟨h.2.1, h.2.2⟩

/-- A load whose access completes (R201, R203, R206, R207). -/
theorem State.load_pass {s : State} {m : MMode} {d : RegNum} {a : Addr} (h : s.TransferReady m d a) (locked : Bool)
    {v : BitVec m.width} {ps : List Nat} (hv : s.memRead .read (s.effective m a) m.width = some v)
    (hp : s.physRange .read (s.effective m a) m.bytes = some ps) :
    s.load locked m d a =
      { ((s.applyIndex (s.indexWrite m a)).writeGpr d v) with
        resv := if locked then some ⟨s.effective m a, m.bytes, ps⟩
          else ((s.applyIndex (s.indexWrite m a)).writeGpr d v).resv }.advance := by
  unfold State.load
  rw [State.checkedTransfer h]
  simp only [hv, hp]

/-- A store whose access completes (R202, R204, R206). -/
theorem State.store_pass {s t : State} {m : MMode} {d : RegNum} {a : Addr} (h : s.TransferReady m d a)
    (ht : s.memWrite (s.effective m a) (s.readGpr d m.width) = some t) :
    s.store m d a = (t.applyIndex (s.indexWrite m a)).advance := by
  unfold State.store
  rw [State.checkedTransfer h]
  simp only [ht]

/-- The reservation a store-conditional needs (R208, R116). -/
theorem State.reserved_iff (s : State) (ea n : Nat) :
    s.reserved ea n = true ↔ s.maySucceed = true ∧ ∃ r, s.resv = some r ∧ r.addr = ea ∧ r.bytes = n := by
  unfold State.reserved
  cases s.resv with
  | none => simp
  | some r => simp; tauto

/-- The index update of a transfer. -/
theorem State.applyIndex_eq_indexed (s : State) (m : MMode) (a : Addr) : s.applyIndex (s.indexWrite m a) = s.indexed m a := by
  unfold State.applyIndex State.indexed
  cases s.indexWrite m a <;> rfl

/-! ## Implementation-specific files, the stuck core, hardware-raised exceptions -/

/-- What the word of an inter-register transfer with a free AUXCODE can do (10_state.md R65): it is a transfer of a file of
the implementation, which completes or is skipped, or it is none. -/
theorem State.extraTransfer_cases (s : State) (w : Word) :
    s.extraTransfer w = none ∨
    ∃ k f toGpr, findExtra s.cfg.extraFiles 0 (Fields.ofWord w).aux = some (k, f, toGpr) ∧
      let m := MMode.ofCode (Fields.ofWord w).mmode
      let d := (Fields.ofWord w).dest
      let r := (Fields.ofWord w).lo
      (s.extraTransfer w = some (s.skipped 5) ∨ s.extraTransfer w = some (s.skipped 6) ∨
        (toGpr = true ∧ s.extraTransfer w = some (s.writeGpr d (s.readExtra k f r m.width)).advance) ∨
        (toGpr = false ∧ s.extraTransfer w = some (s.writeExtra k f d (s.readGpr r m.width)).advance)) := by
  unfold State.extraTransfer
  dsimp only
  split
  · cases h : findExtra s.cfg.extraFiles 0 (Fields.ofWord w).aux with
    | none => exact .inl rfl
    | some e =>
      obtain ⟨k, f, toGpr⟩ := e
      refine .inr ⟨k, f, toGpr, rfl, ?_⟩
      simp only [Option.map_some, Option.some.injEq]
      cases toGpr
      · rcases State.checkOther_cases s _ _ _ with ⟨_, _, h⟩ | ⟨_, _, h⟩ | ⟨_, h⟩
        exacts [.inr (.inr (.inr ⟨rfl, h⟩)), .inr (.inl h), .inl h]
      · rcases State.checkOther_cases s _ _ _ with ⟨_, _, h⟩ | ⟨_, _, h⟩ | ⟨_, h⟩
        exacts [.inr (.inr (.inl ⟨rfl, h⟩)), .inr (.inl h), .inl h]
  · exact .inl rfl

/-- A register file of a stuck core has the file's size and widths (60_exceptions.md R474). -/
theorem freeFile_ok (step file count width : Nat) : FileOk (freeFile step file count width) count width := by
  refine ⟨by simp [freeFile], fun r hr => ?_⟩
  obtain ⟨k, _, rfl⟩ := List.mem_map.1 hr
  rw [BitVec.toNat_ofNat]
  exact Nat.lt_of_le_of_lt (Nat.mod_le _ _) (Nat.mod_lt _ (Nat.two_pow_pos _))

/-- The error a failing fetch leaves (R474): a potent one in EXC alone, an impotent one in a stuck core. -/
theorem State.iBusError_cases (s : State) :
    (s.potent (excBit 20) = true ∧ s.iBusError = { s with exc := s.exc ||| excBit 20 }) ∨
    (s.potent (excBit 20) = false ∧ s.iBusError = { s.undetermined with run := .stuck, error := true } ∧
      s.iBusError.exc.getLsbD 20 = true) := by
  simp only [State.iBusError, show Exc.iBusError.num = 20 from rfl]
  cases h : s.potent (excBit 20)
  · exact .inr ⟨rfl, by simp, by simp [State.undetermined, excBit, Exc.num]⟩
  · exact .inl ⟨rfl, by simp⟩

/-- A hardware-raised exception changes no fetched word. -/
@[simp] theorem State.raiseHw_fetch (s : State) (n : Nat) : (s.raiseHw n).fetch = s.fetch := by
  have range : ∀ k a m, (s.raiseHw n).physRange k a m = s.physRange k a m := by
    intro k a m
    induction m generalizing a with
    | zero => rfl
    | succ m ih => simp only [State.physRange, ih]; rfl
  simp only [State.fetch, State.memRead, range]
  rfl

/-- The hardware-raised exceptions of a step are noted together (60_exceptions.md R454). -/
theorem State.raiseEvents_eq_notedBetween (s : State) (ns : List Nat) : s.raiseEvents ns = s.notedBetween ns := by
  have all : ∀ (ns : List Nat) (s : State), ns.foldl State.raiseHw s =
      if ns = [] then s
      else { s with exc := ns.foldl (fun e n => e ||| 1#64 <<< n) s.exc, exi := s.fetch.getD s.exi } := by
    intro ns
    induction ns with
    | nil => exact fun _ => rfl
    | cons n ns ih =>
      intro s
      simp only [List.foldl_cons, ih, reduceCtorEq, if_false, State.raiseHw_fetch]
      split
      · next h => subst h; rfl
      · simp only [State.raiseHw, excBit]; cases s.fetch <;> rfl
  have accepted : Config.raisable s.cfg =
      fun n => (s.cfg.dsp.isSome && decide (16 ≤ n ∧ n ≤ 19)) || decide (n ∈ s.cfg.hwExceptions) := by
    funext n; simp [Config.raisable]
  simp only [State.raiseEvents, State.notedBetween, all, accepted]

end Sys2Proof.Machine
end

