-- ==== Sys2Proof/Laws/PerInstr.lean ====
section
/-! SUPPORT. For every instruction: its encoding has the fixed bits of its row of spec/opcode_table.json, so the encoder
(and with it the decoder that inverts it) reads the same table as the spec. -/
namespace Sys2Proof.Laws.TableRow
open Sys2Proof

/-- The fixed bits of a row of the opcode table: a word of the row has the bits `value` where `mask` is 1. -/
structure Row where
  mask : Word
  value : Word
deriving DecidableEq, Repr

/-- The row of an instruction in spec/opcode_table.json. -/
def row (i : Instr) : Row :=
  match i with
  | .addR _ _ _ _ => ⟨0xC503C000, 0x00000000⟩
  | .addI _ _ _ _ => ⟨0xC503C000, 0x04000000⟩
  | .subR _ _ _ _ => ⟨0xC503C000, 0x00004000⟩
  | .subI _ _ _ _ => ⟨0xC503C000, 0x04004000⟩
  | .mulR _ _ _ _ => ⟨0xC503C000, 0x00008000⟩
  | .mulI _ _ _ _ => ⟨0xC503C000, 0x04008000⟩
  | .divR _ _ _ _ => ⟨0xC503C000, 0x0000C000⟩
  | .divI _ _ _ _ => ⟨0xC503C000, 0x0400C000⟩
  | .slR _ _ _ _ => ⟨0xC503C000, 0x00010000⟩
  | .slI _ _ _ _ => ⟨0xC503C000, 0x04010000⟩
  | .srR _ _ _ _ => ⟨0xC503C000, 0x00014000⟩
  | .srI _ _ _ _ => ⟨0xC503C000, 0x04014000⟩
  | .rlR _ _ _ => ⟨0xC703C000, 0x00018000⟩
  | .rlI _ _ _ => ⟨0xC703C000, 0x04018000⟩
  | .rrR _ _ _ => ⟨0xC703C000, 0x02018000⟩
  | .rrI _ _ _ => ⟨0xC703C000, 0x06018000⟩
  | .andR _ _ _ => ⟨0xC503C000, 0x0001C000⟩
  | .andI _ _ _ _ => ⟨0xC503C000, 0x0401C000⟩
  | .nandR _ _ _ => ⟨0xC503C000, 0x00020000⟩
  | .nandI _ _ _ _ => ⟨0xC503C000, 0x04020000⟩
  | .orR _ _ _ => ⟨0xC503C000, 0x00024000⟩
  | .orI _ _ _ _ => ⟨0xC503C000, 0x04024000⟩
  | .xorR _ _ _ => ⟨0xC503C000, 0x00028000⟩
  | .xorI _ _ _ _ => ⟨0xC503C000, 0x04028000⟩
  | .sbR _ _ _ => ⟨0xC703C000, 0x0002C000⟩
  | .sbI _ _ _ => ⟨0xC703C000, 0x0402C000⟩
  | .rbR _ _ _ => ⟨0xC703C000, 0x0202C000⟩
  | .rbI _ _ _ => ⟨0xC703C000, 0x0602C000⟩
  | .tbR _ _ _ => ⟨0xC703C000, 0x00030000⟩
  | .tbI _ _ _ => ⟨0xC703C000, 0x04030000⟩
  | .rvbR _ _ _ => ⟨0xC703C000, 0x02030000⟩
  | .rvbI _ _ _ => ⟨0xC703C000, 0x06030000⟩
  | .madR _ _ _ _ _ => ⟨0xC503C000, 0x00038000⟩
  | .madI _ _ _ _ _ => ⟨0xC503C000, 0x04038000⟩
  | .msuR _ _ _ _ _ => ⟨0xC503C000, 0x0003C000⟩
  | .msuI _ _ _ _ _ => ⟨0xC503C000, 0x0403C000⟩
  | .fadd _ _ => ⟨0xFF03C000, 0x01000000⟩
  | .fsub _ _ => ⟨0xFF03C000, 0x01004000⟩
  | .fmul _ _ => ⟨0xFF03C000, 0x01008000⟩
  | .fdiv _ _ => ⟨0xFF03C000, 0x0100C000⟩
  | .frem _ _ => ⟨0xFF03C000, 0x01010000⟩
  | .fcmp _ _ => ⟨0xFF03C000, 0x01014000⟩
  | .fsqr _ => ⟨0xFF03C000, 0x01018000⟩
  | .fabs _ => ⟨0xFF03C000, 0x0101C000⟩
  | .fneg _ => ⟨0xFF03C000, 0x01020000⟩
  | .frnd _ => ⟨0xFF03C000, 0x01024000⟩
  | .fmad _ _ _ => ⟨0xFF03C000, 0x01038000⟩
  | .fmsu _ _ _ => ⟨0xFF03C000, 0x0103C000⟩
  | .ff2i _ _ _ => ⟨0xC503C000, 0x01028000⟩
  | .fi2f _ _ _ => ⟨0xC503C000, 0x0102C000⟩
  | .fext _ _ => ⟨0xC703C000, 0x01030000⟩
  | .fsqz _ _ => ⟨0xC703C000, 0x01034000⟩
  | .jmpR _ _ _ => ⟨0xFC03C000, 0x40000000⟩
  | .jmpO _ _ _ => ⟨0xFC03C000, 0x44000000⟩
  | .bzR _ _ _ _ _ => ⟨0xC403C000, 0x40004000⟩
  | .bzO _ _ _ _ _ => ⟨0xC403C000, 0x44004000⟩
  | .bnzR _ _ _ _ _ => ⟨0xC403C000, 0x40008000⟩
  | .bnzO _ _ _ _ _ => ⟨0xC403C000, 0x44008000⟩
  | .bmR _ _ _ _ _ => ⟨0xC403C000, 0x4000C000⟩
  | .bmO _ _ _ _ _ => ⟨0xC403C000, 0x4400C000⟩
  | .bmzR _ _ _ _ _ => ⟨0xC403C000, 0x40010000⟩
  | .bmzO _ _ _ _ _ => ⟨0xC403C000, 0x44010000⟩
  | .bnmR _ _ _ _ _ => ⟨0xC403C000, 0x40014000⟩
  | .bnmO _ _ _ _ _ => ⟨0xC403C000, 0x44014000⟩
  | .bnmoR _ _ _ _ _ => ⟨0xC403C000, 0x40018000⟩
  | .bnmoO _ _ _ _ _ => ⟨0xC403C000, 0x44018000⟩
  | .blR _ _ _ _ _ => ⟨0xC403C000, 0x4001C000⟩
  | .blO _ _ _ _ _ => ⟨0xC403C000, 0x4401C000⟩
  | .blzR _ _ _ _ _ => ⟨0xC403C000, 0x40020000⟩
  | .blzO _ _ _ _ _ => ⟨0xC403C000, 0x44020000⟩
  | .bnlR _ _ _ _ _ => ⟨0xC403C000, 0x40024000⟩
  | .bnlO _ _ _ _ _ => ⟨0xC403C000, 0x44024000⟩
  | .bnloR _ _ _ _ _ => ⟨0xC403C000, 0x40028000⟩
  | .bnloO _ _ _ _ _ => ⟨0xC403C000, 0x44028000⟩
  | .boR _ _ _ _ _ => ⟨0xC403C000, 0x4002C000⟩
  | .boO _ _ _ _ _ => ⟨0xC403C000, 0x4402C000⟩
  | .bnoR _ _ _ _ _ => ⟨0xC403C000, 0x40030000⟩
  | .bnoO _ _ _ _ _ => ⟨0xC403C000, 0x44030000⟩
  | .ret _ => ⟨0xFE03C000, 0x40034000⟩
  | .reti _ => ⟨0xFE03C000, 0x48034000⟩
  | .rete _ => ⟨0xFE03C000, 0x50034000⟩
  | .reteR _ _ => ⟨0xFE03C000, 0x52034000⟩
  | .reteO _ _ => ⟨0xFE03C000, 0x56034000⟩
  | .retn _ => ⟨0xFE03C000, 0x58034000⟩
  | .retnR _ _ => ⟨0xFE03C000, 0x5A034000⟩
  | .retnO _ _ => ⟨0xFE03C000, 0x5E034000⟩
  | .waitR _ => ⟨0xFF03C000, 0x40038000⟩
  | .waitO _ => ⟨0xFF03C000, 0x44038000⟩
  | .movLoadDisp _ _ _ _ => ⟨0xC7000000, 0xC4000000⟩
  | .movLoadLockedDisp _ _ _ _ => ⟨0xC7000000, 0xC6000000⟩
  | .movStoreDisp _ _ _ _ => ⟨0xC7000000, 0x84000000⟩
  | .movStoreCondDisp _ _ _ _ => ⟨0xC7000000, 0x86000000⟩
  | .movLoadReg _ _ _ => ⟨0xC703C000, 0xC0000000⟩
  | .movLoadRegPostInc _ _ _ => ⟨0xC703C000, 0xC0004000⟩
  | .movLoadRegPostDec _ _ _ => ⟨0xC703C000, 0xC0008000⟩
  | .movLoadRegPreInc _ _ _ => ⟨0xC703C000, 0xC0014000⟩
  | .movLoadRegPreDec _ _ _ => ⟨0xC703C000, 0xC0018000⟩
  | .movLoadIdx _ _ _ _ => ⟨0xC703C000, 0xC0020000⟩
  | .movLoadIdxPostInc _ _ _ _ => ⟨0xC703C000, 0xC0024000⟩
  | .movLoadIdxPostDec _ _ _ _ => ⟨0xC703C000, 0xC0028000⟩
  | .movLoadIdxPreInc _ _ _ _ => ⟨0xC703C000, 0xC0034000⟩
  | .movLoadIdxPreDec _ _ _ _ => ⟨0xC703C000, 0xC0038000⟩
  | .movLoadLockedReg _ _ _ => ⟨0xC703C000, 0xC2000000⟩
  | .movLoadLockedRegPostInc _ _ _ => ⟨0xC703C000, 0xC2004000⟩
  | .movLoadLockedRegPostDec _ _ _ => ⟨0xC703C000, 0xC2008000⟩
  | .movLoadLockedRegPreInc _ _ _ => ⟨0xC703C000, 0xC2014000⟩
  | .movLoadLockedRegPreDec _ _ _ => ⟨0xC703C000, 0xC2018000⟩
  | .movLoadLockedIdx _ _ _ _ => ⟨0xC703C000, 0xC2020000⟩
  | .movLoadLockedIdxPostInc _ _ _ _ => ⟨0xC703C000, 0xC2024000⟩
  | .movLoadLockedIdxPostDec _ _ _ _ => ⟨0xC703C000, 0xC2028000⟩
  | .movLoadLockedIdxPreInc _ _ _ _ => ⟨0xC703C000, 0xC2034000⟩
  | .movLoadLockedIdxPreDec _ _ _ _ => ⟨0xC703C000, 0xC2038000⟩
  | .movStoreReg _ _ _ => ⟨0xC703C000, 0x80000000⟩
  | .movStoreRegPostInc _ _ _ => ⟨0xC703C000, 0x80004000⟩
  | .movStoreRegPostDec _ _ _ => ⟨0xC703C000, 0x80008000⟩
  | .movStoreRegPreInc _ _ _ => ⟨0xC703C000, 0x80014000⟩
  | .movStoreRegPreDec _ _ _ => ⟨0xC703C000, 0x80018000⟩
  | .movStoreIdx _ _ _ _ => ⟨0xC703C000, 0x80020000⟩
  | .movStoreIdxPostInc _ _ _ _ => ⟨0xC703C000, 0x80024000⟩
  | .movStoreIdxPostDec _ _ _ _ => ⟨0xC703C000, 0x80028000⟩
  | .movStoreIdxPreInc _ _ _ _ => ⟨0xC703C000, 0x80034000⟩
  | .movStoreIdxPreDec _ _ _ _ => ⟨0xC703C000, 0x80038000⟩
  | .movStoreCondReg _ _ _ => ⟨0xC703C000, 0x82000000⟩
  | .movStoreCondRegPostInc _ _ _ => ⟨0xC703C000, 0x82004000⟩
  | .movStoreCondRegPostDec _ _ _ => ⟨0xC703C000, 0x82008000⟩
  | .movStoreCondRegPreInc _ _ _ => ⟨0xC703C000, 0x82014000⟩
  | .movStoreCondRegPreDec _ _ _ => ⟨0xC703C000, 0x82018000⟩
  | .movStoreCondIdx _ _ _ _ => ⟨0xC703C000, 0x82020000⟩
  | .movStoreCondIdxPostInc _ _ _ _ => ⟨0xC703C000, 0x82024000⟩
  | .movStoreCondIdxPostDec _ _ _ _ => ⟨0xC703C000, 0x82028000⟩
  | .movStoreCondIdxPreInc _ _ _ _ => ⟨0xC703C000, 0x82034000⟩
  | .movStoreCondIdxPreDec _ _ _ _ => ⟨0xC703C000, 0x82038000⟩
  | .movRegReg _ _ _ => ⟨0xC703C000, 0xC1000000⟩
  | .movRegSpc _ _ _ => ⟨0xC703C000, 0xC1004000⟩
  | .movSpcReg _ _ _ => ⟨0xC703C000, 0xC1008000⟩
  | .movRegDsp _ _ _ => ⟨0xC703C000, 0xC100C000⟩
  | .movDspReg _ _ _ => ⟨0xC703C000, 0xC1010000⟩
  | .movRegFpr _ _ _ => ⟨0xC703C000, 0xC1038000⟩
  | .movFprReg _ _ _ => ⟨0xC703C000, 0xC103C000⟩
  | .movImm _ _ _ _ => ⟨0xC5000000, 0xC5000000⟩

/-- The encoding of the instruction has the fixed bits of its row. -/
def Statement (i : Instr) : Prop := encode i &&& (row i).mask = (row i).value

/-- The fields of a word under a mask that keeps or clears each field as a whole. -/
def keep (f : Fields) (mmode b26 b25 b24 dest aux : Bool) : Fields where
  group := f.group
  mmode := if mmode then f.mmode else 0
  b26 := if b26 then f.b26 else false
  b25 := if b25 then f.b25 else false
  b24 := if b24 then f.b24 else false
  dest := if dest then f.dest else 0
  aux := if aux then f.aux else 0
  hi2 := 0
  mid := 0
  lo := 0

@[simp] theorem and_ones1 (b : Bool) : BitVec.ofBool b &&& 1#1 = BitVec.ofBool b := by cases b <;> rfl

@[simp] theorem and_ones2 (x : BitVec 2) : x &&& 3#2 = x := by revert x; decide

@[simp] theorem and_ones3 (x : BitVec 3) : x &&& 7#3 = x := by revert x; decide

@[simp] theorem and_ones4 (x : BitVec 4) : x &&& 15#4 = x := by revert x; decide

theorem mask_C403C000 (f : Fields) :
    f.toWord &&& 0xC403C000#32 = (keep f false true false false false true).toWord := by
  rw [show 0xC403C000#32 = (3#2 ++ (0#3 ++ (BitVec.ofBool true ++ (BitVec.ofBool false ++ (BitVec.ofBool false ++
    (0#6 ++ (15#4 ++ (0#2 ++ (0#6 ++ 0#6))))))))) from rfl]
  unfold Fields.toWord keep
  iterate 9 rw [BitVec.and_append]
  simp

theorem mask_C5000000 (f : Fields) :
    f.toWord &&& 0xC5000000#32 = (keep f false true false true false false).toWord := by
  rw [show 0xC5000000#32 = (3#2 ++ (0#3 ++ (BitVec.ofBool true ++ (BitVec.ofBool false ++ (BitVec.ofBool true ++
    (0#6 ++ (0#4 ++ (0#2 ++ (0#6 ++ 0#6))))))))) from rfl]
  unfold Fields.toWord keep
  iterate 9 rw [BitVec.and_append]
  simp

theorem mask_C503C000 (f : Fields) :
    f.toWord &&& 0xC503C000#32 = (keep f false true false true false true).toWord := by
  rw [show 0xC503C000#32 = (3#2 ++ (0#3 ++ (BitVec.ofBool true ++ (BitVec.ofBool false ++ (BitVec.ofBool true ++
    (0#6 ++ (15#4 ++ (0#2 ++ (0#6 ++ 0#6))))))))) from rfl]
  unfold Fields.toWord keep
  iterate 9 rw [BitVec.and_append]
  simp

theorem mask_C7000000 (f : Fields) :
    f.toWord &&& 0xC7000000#32 = (keep f false true true true false false).toWord := by
  rw [show 0xC7000000#32 = (3#2 ++ (0#3 ++ (BitVec.ofBool true ++ (BitVec.ofBool true ++ (BitVec.ofBool true ++
    (0#6 ++ (0#4 ++ (0#2 ++ (0#6 ++ 0#6))))))))) from rfl]
  unfold Fields.toWord keep
  iterate 9 rw [BitVec.and_append]
  simp

theorem mask_C703C000 (f : Fields) :
    f.toWord &&& 0xC703C000#32 = (keep f false true true true false true).toWord := by
  rw [show 0xC703C000#32 = (3#2 ++ (0#3 ++ (BitVec.ofBool true ++ (BitVec.ofBool true ++ (BitVec.ofBool true ++
    (0#6 ++ (15#4 ++ (0#2 ++ (0#6 ++ 0#6))))))))) from rfl]
  unfold Fields.toWord keep
  iterate 9 rw [BitVec.and_append]
  simp

theorem mask_FC03C000 (f : Fields) :
    f.toWord &&& 0xFC03C000#32 = (keep f true true false false false true).toWord := by
  rw [show 0xFC03C000#32 = (3#2 ++ (7#3 ++ (BitVec.ofBool true ++ (BitVec.ofBool false ++ (BitVec.ofBool false ++
    (0#6 ++ (15#4 ++ (0#2 ++ (0#6 ++ 0#6))))))))) from rfl]
  unfold Fields.toWord keep
  iterate 9 rw [BitVec.and_append]
  simp

theorem mask_FE03C000 (f : Fields) :
    f.toWord &&& 0xFE03C000#32 = (keep f true true true false false true).toWord := by
  rw [show 0xFE03C000#32 = (3#2 ++ (7#3 ++ (BitVec.ofBool true ++ (BitVec.ofBool true ++ (BitVec.ofBool false ++
    (0#6 ++ (15#4 ++ (0#2 ++ (0#6 ++ 0#6))))))))) from rfl]
  unfold Fields.toWord keep
  iterate 9 rw [BitVec.and_append]
  simp

theorem mask_FF03C000 (f : Fields) :
    f.toWord &&& 0xFF03C000#32 = (keep f true true true true false true).toWord := by
  rw [show 0xFF03C000#32 = (3#2 ++ (7#3 ++ (BitVec.ofBool true ++ (BitVec.ofBool true ++ (BitVec.ofBool true ++
    (0#6 ++ (15#4 ++ (0#2 ++ (0#6 ++ 0#6))))))))) from rfl]
  unfold Fields.toWord keep
  iterate 9 rw [BitVec.and_append]
  simp

theorem addR (m : MMode) (u : Bool) (d : RegNum) (r : RegNum) :
    Statement (.addR m u d r) := by
  refine (mask_C503C000 _).trans ?_
  show Fields.toWord ⟨0, 0, false, false, false, 0, 0, 0, 0, 0⟩ = _
  rfl

theorem addI (m : MMode) (u : Bool) (d : RegNum) (imm : BitVec 14) :
    Statement (.addI m u d imm) := by
  refine (mask_C503C000 _).trans ?_
  show Fields.toWord ⟨0, 0, true, false, false, 0, 0, 0, 0, 0⟩ = _
  rfl

theorem subR (m : MMode) (u : Bool) (d : RegNum) (r : RegNum) :
    Statement (.subR m u d r) := by
  refine (mask_C503C000 _).trans ?_
  show Fields.toWord ⟨0, 0, false, false, false, 0, 1, 0, 0, 0⟩ = _
  rfl

theorem subI (m : MMode) (u : Bool) (d : RegNum) (imm : BitVec 14) :
    Statement (.subI m u d imm) := by
  refine (mask_C503C000 _).trans ?_
  show Fields.toWord ⟨0, 0, true, false, false, 0, 1, 0, 0, 0⟩ = _
  rfl

theorem mulR (m : MMode) (u : Bool) (d : RegNum) (r : RegNum) :
    Statement (.mulR m u d r) := by
  refine (mask_C503C000 _).trans ?_
  show Fields.toWord ⟨0, 0, false, false, false, 0, 2, 0, 0, 0⟩ = _
  rfl

theorem mulI (m : MMode) (u : Bool) (d : RegNum) (imm : BitVec 14) :
    Statement (.mulI m u d imm) := by
  refine (mask_C503C000 _).trans ?_
  show Fields.toWord ⟨0, 0, true, false, false, 0, 2, 0, 0, 0⟩ = _
  rfl

theorem divR (m : MMode) (u : Bool) (d : RegNum) (r : RegNum) :
    Statement (.divR m u d r) := by
  refine (mask_C503C000 _).trans ?_
  show Fields.toWord ⟨0, 0, false, false, false, 0, 3, 0, 0, 0⟩ = _
  rfl

theorem divI (m : MMode) (u : Bool) (d : RegNum) (imm : BitVec 14) :
    Statement (.divI m u d imm) := by
  refine (mask_C503C000 _).trans ?_
  show Fields.toWord ⟨0, 0, true, false, false, 0, 3, 0, 0, 0⟩ = _
  rfl

theorem slR (m : MMode) (u : Bool) (d : RegNum) (r : RegNum) :
    Statement (.slR m u d r) := by
  refine (mask_C503C000 _).trans ?_
  show Fields.toWord ⟨0, 0, false, false, false, 0, 4, 0, 0, 0⟩ = _
  rfl

theorem slI (m : MMode) (u : Bool) (d : RegNum) (imm : BitVec 14) :
    Statement (.slI m u d imm) := by
  refine (mask_C503C000 _).trans ?_
  show Fields.toWord ⟨0, 0, true, false, false, 0, 4, 0, 0, 0⟩ = _
  rfl

theorem srR (m : MMode) (u : Bool) (d : RegNum) (r : RegNum) :
    Statement (.srR m u d r) := by
  refine (mask_C503C000 _).trans ?_
  show Fields.toWord ⟨0, 0, false, false, false, 0, 5, 0, 0, 0⟩ = _
  rfl

theorem srI (m : MMode) (u : Bool) (d : RegNum) (imm : BitVec 14) :
    Statement (.srI m u d imm) := by
  refine (mask_C503C000 _).trans ?_
  show Fields.toWord ⟨0, 0, true, false, false, 0, 5, 0, 0, 0⟩ = _
  rfl

theorem rlR (m : MMode) (d : RegNum) (r : RegNum) :
    Statement (.rlR m d r) := by
  refine (mask_C703C000 _).trans ?_
  show Fields.toWord ⟨0, 0, false, false, false, 0, 6, 0, 0, 0⟩ = _
  rfl

theorem rlI (m : MMode) (d : RegNum) (imm : BitVec 14) :
    Statement (.rlI m d imm) := by
  refine (mask_C703C000 _).trans ?_
  show Fields.toWord ⟨0, 0, true, false, false, 0, 6, 0, 0, 0⟩ = _
  rfl

theorem rrR (m : MMode) (d : RegNum) (r : RegNum) :
    Statement (.rrR m d r) := by
  refine (mask_C703C000 _).trans ?_
  show Fields.toWord ⟨0, 0, false, true, false, 0, 6, 0, 0, 0⟩ = _
  rfl

theorem rrI (m : MMode) (d : RegNum) (imm : BitVec 14) :
    Statement (.rrI m d imm) := by
  refine (mask_C703C000 _).trans ?_
  show Fields.toWord ⟨0, 0, true, true, false, 0, 6, 0, 0, 0⟩ = _
  rfl

theorem andR (m : MMode) (d : RegNum) (r : RegNum) :
    Statement (.andR m d r) := by
  refine (mask_C503C000 _).trans ?_
  show Fields.toWord ⟨0, 0, false, false, false, 0, 7, 0, 0, 0⟩ = _
  rfl

theorem andI (m : MMode) (u : Bool) (d : RegNum) (imm : BitVec 14) :
    Statement (.andI m u d imm) := by
  refine (mask_C503C000 _).trans ?_
  show Fields.toWord ⟨0, 0, true, false, false, 0, 7, 0, 0, 0⟩ = _
  rfl

theorem nandR (m : MMode) (d : RegNum) (r : RegNum) :
    Statement (.nandR m d r) := by
  refine (mask_C503C000 _).trans ?_
  show Fields.toWord ⟨0, 0, false, false, false, 0, 8, 0, 0, 0⟩ = _
  rfl

theorem nandI (m : MMode) (u : Bool) (d : RegNum) (imm : BitVec 14) :
    Statement (.nandI m u d imm) := by
  refine (mask_C503C000 _).trans ?_
  show Fields.toWord ⟨0, 0, true, false, false, 0, 8, 0, 0, 0⟩ = _
  rfl

theorem orR (m : MMode) (d : RegNum) (r : RegNum) :
    Statement (.orR m d r) := by
  refine (mask_C503C000 _).trans ?_
  show Fields.toWord ⟨0, 0, false, false, false, 0, 9, 0, 0, 0⟩ = _
  rfl

theorem orI (m : MMode) (u : Bool) (d : RegNum) (imm : BitVec 14) :
    Statement (.orI m u d imm) := by
  refine (mask_C503C000 _).trans ?_
  show Fields.toWord ⟨0, 0, true, false, false, 0, 9, 0, 0, 0⟩ = _
  rfl

theorem xorR (m : MMode) (d : RegNum) (r : RegNum) :
    Statement (.xorR m d r) := by
  refine (mask_C503C000 _).trans ?_
  show Fields.toWord ⟨0, 0, false, false, false, 0, 10, 0, 0, 0⟩ = _
  rfl

theorem xorI (m : MMode) (u : Bool) (d : RegNum) (imm : BitVec 14) :
    Statement (.xorI m u d imm) := by
  refine (mask_C503C000 _).trans ?_
  show Fields.toWord ⟨0, 0, true, false, false, 0, 10, 0, 0, 0⟩ = _
  rfl

theorem sbR (m : MMode) (d : RegNum) (r : RegNum) :
    Statement (.sbR m d r) := by
  refine (mask_C703C000 _).trans ?_
  show Fields.toWord ⟨0, 0, false, false, false, 0, 11, 0, 0, 0⟩ = _
  rfl

theorem sbI (m : MMode) (d : RegNum) (imm : BitVec 14) :
    Statement (.sbI m d imm) := by
  refine (mask_C703C000 _).trans ?_
  show Fields.toWord ⟨0, 0, true, false, false, 0, 11, 0, 0, 0⟩ = _
  rfl

theorem rbR (m : MMode) (d : RegNum) (r : RegNum) :
    Statement (.rbR m d r) := by
  refine (mask_C703C000 _).trans ?_
  show Fields.toWord ⟨0, 0, false, true, false, 0, 11, 0, 0, 0⟩ = _
  rfl

theorem rbI (m : MMode) (d : RegNum) (imm : BitVec 14) :
    Statement (.rbI m d imm) := by
  refine (mask_C703C000 _).trans ?_
  show Fields.toWord ⟨0, 0, true, true, false, 0, 11, 0, 0, 0⟩ = _
  rfl

theorem tbR (m : MMode) (d : RegNum) (r : RegNum) :
    Statement (.tbR m d r) := by
  refine (mask_C703C000 _).trans ?_
  show Fields.toWord ⟨0, 0, false, false, false, 0, 12, 0, 0, 0⟩ = _
  rfl

theorem tbI (m : MMode) (d : RegNum) (imm : BitVec 14) :
    Statement (.tbI m d imm) := by
  refine (mask_C703C000 _).trans ?_
  show Fields.toWord ⟨0, 0, true, false, false, 0, 12, 0, 0, 0⟩ = _
  rfl

theorem rvbR (m : MMode) (d : RegNum) (r : RegNum) :
    Statement (.rvbR m d r) := by
  refine (mask_C703C000 _).trans ?_
  show Fields.toWord ⟨0, 0, false, true, false, 0, 12, 0, 0, 0⟩ = _
  rfl

theorem rvbI (m : MMode) (d : RegNum) (imm : BitVec 14) :
    Statement (.rvbI m d imm) := by
  refine (mask_C703C000 _).trans ?_
  show Fields.toWord ⟨0, 0, true, true, false, 0, 12, 0, 0, 0⟩ = _
  rfl

theorem madR (m : MMode) (u : Bool) (d : RegNum) (r : RegNum) (r2 : RegNum) :
    Statement (.madR m u d r r2) := by
  refine (mask_C503C000 _).trans ?_
  show Fields.toWord ⟨0, 0, false, false, false, 0, 14, 0, 0, 0⟩ = _
  rfl

theorem madI (m : MMode) (u : Bool) (d : RegNum) (r : RegNum) (imm : BitVec 8) :
    Statement (.madI m u d r imm) := by
  refine (mask_C503C000 _).trans ?_
  show Fields.toWord ⟨0, 0, true, false, false, 0, 14, 0, 0, 0⟩ = _
  rfl

theorem msuR (m : MMode) (u : Bool) (d : RegNum) (r : RegNum) (r2 : RegNum) :
    Statement (.msuR m u d r r2) := by
  refine (mask_C503C000 _).trans ?_
  show Fields.toWord ⟨0, 0, false, false, false, 0, 15, 0, 0, 0⟩ = _
  rfl

theorem msuI (m : MMode) (u : Bool) (d : RegNum) (r : RegNum) (imm : BitVec 8) :
    Statement (.msuI m u d r imm) := by
  refine (mask_C503C000 _).trans ?_
  show Fields.toWord ⟨0, 0, true, false, false, 0, 15, 0, 0, 0⟩ = _
  rfl

theorem fadd (d : RegNum) (r : RegNum) :
    Statement (.fadd d r) := by
  refine (mask_FF03C000 _).trans ?_
  show Fields.toWord ⟨0, 0, false, false, true, 0, 0, 0, 0, 0⟩ = _
  rfl

theorem fsub (d : RegNum) (r : RegNum) :
    Statement (.fsub d r) := by
  refine (mask_FF03C000 _).trans ?_
  show Fields.toWord ⟨0, 0, false, false, true, 0, 1, 0, 0, 0⟩ = _
  rfl

theorem fmul (d : RegNum) (r : RegNum) :
    Statement (.fmul d r) := by
  refine (mask_FF03C000 _).trans ?_
  show Fields.toWord ⟨0, 0, false, false, true, 0, 2, 0, 0, 0⟩ = _
  rfl

theorem fdiv (d : RegNum) (r : RegNum) :
    Statement (.fdiv d r) := by
  refine (mask_FF03C000 _).trans ?_
  show Fields.toWord ⟨0, 0, false, false, true, 0, 3, 0, 0, 0⟩ = _
  rfl

theorem frem (d : RegNum) (r : RegNum) :
    Statement (.frem d r) := by
  refine (mask_FF03C000 _).trans ?_
  show Fields.toWord ⟨0, 0, false, false, true, 0, 4, 0, 0, 0⟩ = _
  rfl

theorem fcmp (d : RegNum) (r : RegNum) :
    Statement (.fcmp d r) := by
  refine (mask_FF03C000 _).trans ?_
  show Fields.toWord ⟨0, 0, false, false, true, 0, 5, 0, 0, 0⟩ = _
  rfl

theorem fsqr (d : RegNum) :
    Statement (.fsqr d) := by
  refine (mask_FF03C000 _).trans ?_
  show Fields.toWord ⟨0, 0, false, false, true, 0, 6, 0, 0, 0⟩ = _
  rfl

theorem fabs (d : RegNum) :
    Statement (.fabs d) := by
  refine (mask_FF03C000 _).trans ?_
  show Fields.toWord ⟨0, 0, false, false, true, 0, 7, 0, 0, 0⟩ = _
  rfl

theorem fneg (d : RegNum) :
    Statement (.fneg d) := by
  refine (mask_FF03C000 _).trans ?_
  show Fields.toWord ⟨0, 0, false, false, true, 0, 8, 0, 0, 0⟩ = _
  rfl

theorem frnd (d : RegNum) :
    Statement (.frnd d) := by
  refine (mask_FF03C000 _).trans ?_
  show Fields.toWord ⟨0, 0, false, false, true, 0, 9, 0, 0, 0⟩ = _
  rfl

theorem fmad (d : RegNum) (r : RegNum) (r2 : RegNum) :
    Statement (.fmad d r r2) := by
  refine (mask_FF03C000 _).trans ?_
  show Fields.toWord ⟨0, 0, false, false, true, 0, 14, 0, 0, 0⟩ = _
  rfl

theorem fmsu (d : RegNum) (r : RegNum) (r2 : RegNum) :
    Statement (.fmsu d r r2) := by
  refine (mask_FF03C000 _).trans ?_
  show Fields.toWord ⟨0, 0, false, false, true, 0, 15, 0, 0, 0⟩ = _
  rfl

theorem ff2i (m : MMode) (u : Bool) (d : RegNum) :
    Statement (.ff2i m u d) := by
  refine (mask_C503C000 _).trans ?_
  show Fields.toWord ⟨0, 0, false, false, true, 0, 10, 0, 0, 0⟩ = _
  rfl

theorem fi2f (m : MMode) (u : Bool) (d : RegNum) :
    Statement (.fi2f m u d) := by
  refine (mask_C503C000 _).trans ?_
  show Fields.toWord ⟨0, 0, false, false, true, 0, 11, 0, 0, 0⟩ = _
  rfl

theorem fext (m : MMode) (d : RegNum) :
    Statement (.fext m d) := by
  refine (mask_C703C000 _).trans ?_
  show Fields.toWord ⟨0, 0, false, false, true, 0, 12, 0, 0, 0⟩ = _
  rfl

theorem fsqz (m : MMode) (d : RegNum) :
    Statement (.fsqz m d) := by
  refine (mask_C703C000 _).trans ?_
  show Fields.toWord ⟨0, 0, false, false, true, 0, 13, 0, 0, 0⟩ = _
  rfl

theorem jmpR (a : Bool) (p : Bool) (loc : RegNum) :
    Statement (.jmpR a p loc) := by
  refine (mask_FC03C000 _).trans ?_
  show Fields.toWord ⟨1, 0, false, false, false, 0, 0, 0, 0, 0⟩ = _
  rfl

theorem jmpO (a : Bool) (p : Bool) (off : BitVec 20) :
    Statement (.jmpO a p off) := by
  refine (mask_FC03C000 _).trans ?_
  show Fields.toWord ⟨1, 0, true, false, false, 0, 0, 0, 0, 0⟩ = _
  rfl

theorem bzR (m : MMode) (a : Bool) (p : Bool) (arg : RegNum) (loc : RegNum) :
    Statement (.bzR m a p arg loc) := by
  refine (mask_C403C000 _).trans ?_
  show Fields.toWord ⟨1, 0, false, false, false, 0, 1, 0, 0, 0⟩ = _
  rfl

theorem bzO (m : MMode) (a : Bool) (p : Bool) (arg : RegNum) (off : BitVec 14) :
    Statement (.bzO m a p arg off) := by
  refine (mask_C403C000 _).trans ?_
  show Fields.toWord ⟨1, 0, true, false, false, 0, 1, 0, 0, 0⟩ = _
  rfl

theorem bnzR (m : MMode) (a : Bool) (p : Bool) (arg : RegNum) (loc : RegNum) :
    Statement (.bnzR m a p arg loc) := by
  refine (mask_C403C000 _).trans ?_
  show Fields.toWord ⟨1, 0, false, false, false, 0, 2, 0, 0, 0⟩ = _
  rfl

theorem bnzO (m : MMode) (a : Bool) (p : Bool) (arg : RegNum) (off : BitVec 14) :
    Statement (.bnzO m a p arg off) := by
  refine (mask_C403C000 _).trans ?_
  show Fields.toWord ⟨1, 0, true, false, false, 0, 2, 0, 0, 0⟩ = _
  rfl

theorem bmR (m : MMode) (a : Bool) (p : Bool) (arg : RegNum) (loc : RegNum) :
    Statement (.bmR m a p arg loc) := by
  refine (mask_C403C000 _).trans ?_
  show Fields.toWord ⟨1, 0, false, false, false, 0, 3, 0, 0, 0⟩ = _
  rfl

theorem bmO (m : MMode) (a : Bool) (p : Bool) (arg : RegNum) (off : BitVec 14) :
    Statement (.bmO m a p arg off) := by
  refine (mask_C403C000 _).trans ?_
  show Fields.toWord ⟨1, 0, true, false, false, 0, 3, 0, 0, 0⟩ = _
  rfl

theorem bmzR (m : MMode) (a : Bool) (p : Bool) (arg : RegNum) (loc : RegNum) :
    Statement (.bmzR m a p arg loc) := by
  refine (mask_C403C000 _).trans ?_
  show Fields.toWord ⟨1, 0, false, false, false, 0, 4, 0, 0, 0⟩ = _
  rfl

theorem bmzO (m : MMode) (a : Bool) (p : Bool) (arg : RegNum) (off : BitVec 14) :
    Statement (.bmzO m a p arg off) := by
  refine (mask_C403C000 _).trans ?_
  show Fields.toWord ⟨1, 0, true, false, false, 0, 4, 0, 0, 0⟩ = _
  rfl

theorem bnmR (m : MMode) (a : Bool) (p : Bool) (arg : RegNum) (loc : RegNum) :
    Statement (.bnmR m a p arg loc) := by
  refine (mask_C403C000 _).trans ?_
  show Fields.toWord ⟨1, 0, false, false, false, 0, 5, 0, 0, 0⟩ = _
  rfl

theorem bnmO (m : MMode) (a : Bool) (p : Bool) (arg : RegNum) (off : BitVec 14) :
    Statement (.bnmO m a p arg off) := by
  refine (mask_C403C000 _).trans ?_
  show Fields.toWord ⟨1, 0, true, false, false, 0, 5, 0, 0, 0⟩ = _
  rfl

theorem bnmoR (m : MMode) (a : Bool) (p : Bool) (arg : RegNum) (loc : RegNum) :
    Statement (.bnmoR m a p arg loc) := by
  refine (mask_C403C000 _).trans ?_
  show Fields.toWord ⟨1, 0, false, false, false, 0, 6, 0, 0, 0⟩ = _
  rfl

theorem bnmoO (m : MMode) (a : Bool) (p : Bool) (arg : RegNum) (off : BitVec 14) :
    Statement (.bnmoO m a p arg off) := by
  refine (mask_C403C000 _).trans ?_
  show Fields.toWord ⟨1, 0, true, false, false, 0, 6, 0, 0, 0⟩ = _
  rfl

theorem blR (m : MMode) (a : Bool) (p : Bool) (arg : RegNum) (loc : RegNum) :
    Statement (.blR m a p arg loc) := by
  refine (mask_C403C000 _).trans ?_
  show Fields.toWord ⟨1, 0, false, false, false, 0, 7, 0, 0, 0⟩ = _
  rfl

theorem blO (m : MMode) (a : Bool) (p : Bool) (arg : RegNum) (off : BitVec 14) :
    Statement (.blO m a p arg off) := by
  refine (mask_C403C000 _).trans ?_
  show Fields.toWord ⟨1, 0, true, false, false, 0, 7, 0, 0, 0⟩ = _
  rfl

theorem blzR (m : MMode) (a : Bool) (p : Bool) (arg : RegNum) (loc : RegNum) :
    Statement (.blzR m a p arg loc) := by
  refine (mask_C403C000 _).trans ?_
  show Fields.toWord ⟨1, 0, false, false, false, 0, 8, 0, 0, 0⟩ = _
  rfl

theorem blzO (m : MMode) (a : Bool) (p : Bool) (arg : RegNum) (off : BitVec 14) :
    Statement (.blzO m a p arg off) := by
  refine (mask_C403C000 _).trans ?_
  show Fields.toWord ⟨1, 0, true, false, false, 0, 8, 0, 0, 0⟩ = _
  rfl

theorem bnlR (m : MMode) (a : Bool) (p : Bool) (arg : RegNum) (loc : RegNum) :
    Statement (.bnlR m a p arg loc) := by
  refine (mask_C403C000 _).trans ?_
  show Fields.toWord ⟨1, 0, false, false, false, 0, 9, 0, 0, 0⟩ = _
  rfl

theorem bnlO (m : MMode) (a : Bool) (p : Bool) (arg : RegNum) (off : BitVec 14) :
    Statement (.bnlO m a p arg off) := by
  refine (mask_C403C000 _).trans ?_
  show Fields.toWord ⟨1, 0, true, false, false, 0, 9, 0, 0, 0⟩ = _
  rfl

theorem bnloR (m : MMode) (a : Bool) (p : Bool) (arg : RegNum) (loc : RegNum) :
    Statement (.bnloR m a p arg loc) := by
  refine (mask_C403C000 _).trans ?_
  show Fields.toWord ⟨1, 0, false, false, false, 0, 10, 0, 0, 0⟩ = _
  rfl

theorem bnloO (m : MMode) (a : Bool) (p : Bool) (arg : RegNum) (off : BitVec 14) :
    Statement (.bnloO m a p arg off) := by
  refine (mask_C403C000 _).trans ?_
  show Fields.toWord ⟨1, 0, true, false, false, 0, 10, 0, 0, 0⟩ = _
  rfl

theorem boR (m : MMode) (a : Bool) (p : Bool) (arg : RegNum) (loc : RegNum) :
    Statement (.boR m a p arg loc) := by
  refine (mask_C403C000 _).trans ?_
  show Fields.toWord ⟨1, 0, false, false, false, 0, 11, 0, 0, 0⟩ = _
  rfl

theorem boO (m : MMode) (a : Bool) (p : Bool) (arg : RegNum) (off : BitVec 14) :
    Statement (.boO m a p arg off) := by
  refine (mask_C403C000 _).trans ?_
  show Fields.toWord ⟨1, 0, true, false, false, 0, 11, 0, 0, 0⟩ = _
  rfl

theorem bnoR (m : MMode) (a : Bool) (p : Bool) (arg : RegNum) (loc : RegNum) :
    Statement (.bnoR m a p arg loc) := by
  refine (mask_C403C000 _).trans ?_
  show Fields.toWord ⟨1, 0, false, false, false, 0, 12, 0, 0, 0⟩ = _
  rfl

theorem bnoO (m : MMode) (a : Bool) (p : Bool) (arg : RegNum) (off : BitVec 14) :
    Statement (.bnoO m a p arg off) := by
  refine (mask_C403C000 _).trans ?_
  show Fields.toWord ⟨1, 0, true, false, false, 0, 12, 0, 0, 0⟩ = _
  rfl

theorem ret (p : Bool) :
    Statement (.ret p) := by
  refine (mask_FE03C000 _).trans ?_
  show Fields.toWord ⟨1, 0, false, false, false, 0, 13, 0, 0, 0⟩ = _
  rfl

theorem reti (p : Bool) :
    Statement (.reti p) := by
  refine (mask_FE03C000 _).trans ?_
  show Fields.toWord ⟨1, 1, false, false, false, 0, 13, 0, 0, 0⟩ = _
  rfl

theorem rete (p : Bool) :
    Statement (.rete p) := by
  refine (mask_FE03C000 _).trans ?_
  show Fields.toWord ⟨1, 2, false, false, false, 0, 13, 0, 0, 0⟩ = _
  rfl

theorem reteR (p : Bool) (loc : RegNum) :
    Statement (.reteR p loc) := by
  refine (mask_FE03C000 _).trans ?_
  show Fields.toWord ⟨1, 2, false, true, false, 0, 13, 0, 0, 0⟩ = _
  rfl

theorem reteO (p : Bool) (off : BitVec 20) :
    Statement (.reteO p off) := by
  refine (mask_FE03C000 _).trans ?_
  show Fields.toWord ⟨1, 2, true, true, false, 0, 13, 0, 0, 0⟩ = _
  rfl

theorem retn (p : Bool) :
    Statement (.retn p) := by
  refine (mask_FE03C000 _).trans ?_
  show Fields.toWord ⟨1, 3, false, false, false, 0, 13, 0, 0, 0⟩ = _
  rfl

theorem retnR (p : Bool) (loc : RegNum) :
    Statement (.retnR p loc) := by
  refine (mask_FE03C000 _).trans ?_
  show Fields.toWord ⟨1, 3, false, true, false, 0, 13, 0, 0, 0⟩ = _
  rfl

theorem retnO (p : Bool) (off : BitVec 20) :
    Statement (.retnO p off) := by
  refine (mask_FE03C000 _).trans ?_
  show Fields.toWord ⟨1, 3, true, true, false, 0, 13, 0, 0, 0⟩ = _
  rfl

theorem waitR (loc : RegNum) :
    Statement (.waitR loc) := by
  refine (mask_FF03C000 _).trans ?_
  show Fields.toWord ⟨1, 0, false, false, false, 0, 14, 0, 0, 0⟩ = _
  rfl

theorem waitO (off : BitVec 20) :
    Statement (.waitO off) := by
  refine (mask_FF03C000 _).trans ?_
  show Fields.toWord ⟨1, 0, true, false, false, 0, 14, 0, 0, 0⟩ = _
  rfl

theorem movLoadDisp (m : MMode) (d : RegNum) (base : RegNum) (off : BitVec 12) :
    Statement (.movLoadDisp m d base off) := by
  refine (mask_C7000000 _).trans ?_
  show Fields.toWord ⟨3, 0, true, false, false, 0, 0, 0, 0, 0⟩ = _
  rfl

theorem movLoadLockedDisp (m : MMode) (d : RegNum) (base : RegNum) (off : BitVec 12) :
    Statement (.movLoadLockedDisp m d base off) := by
  refine (mask_C7000000 _).trans ?_
  show Fields.toWord ⟨3, 0, true, true, false, 0, 0, 0, 0, 0⟩ = _
  rfl

theorem movStoreDisp (m : MMode) (d : RegNum) (base : RegNum) (off : BitVec 12) :
    Statement (.movStoreDisp m d base off) := by
  refine (mask_C7000000 _).trans ?_
  show Fields.toWord ⟨2, 0, true, false, false, 0, 0, 0, 0, 0⟩ = _
  rfl

theorem movStoreCondDisp (m : MMode) (d : RegNum) (base : RegNum) (off : BitVec 12) :
    Statement (.movStoreCondDisp m d base off) := by
  refine (mask_C7000000 _).trans ?_
  show Fields.toWord ⟨2, 0, true, true, false, 0, 0, 0, 0, 0⟩ = _
  rfl

theorem movLoadReg (m : MMode) (d : RegNum) (idx : RegNum) :
    Statement (.movLoadReg m d idx) := by
  refine (mask_C703C000 _).trans ?_
  show Fields.toWord ⟨3, 0, false, false, false, 0, 0, 0, 0, 0⟩ = _
  rfl

theorem movLoadRegPostInc (m : MMode) (d : RegNum) (idx : RegNum) :
    Statement (.movLoadRegPostInc m d idx) := by
  refine (mask_C703C000 _).trans ?_
  show Fields.toWord ⟨3, 0, false, false, false, 0, 1, 0, 0, 0⟩ = _
  rfl

theorem movLoadRegPostDec (m : MMode) (d : RegNum) (idx : RegNum) :
    Statement (.movLoadRegPostDec m d idx) := by
  refine (mask_C703C000 _).trans ?_
  show Fields.toWord ⟨3, 0, false, false, false, 0, 2, 0, 0, 0⟩ = _
  rfl

theorem movLoadRegPreInc (m : MMode) (d : RegNum) (idx : RegNum) :
    Statement (.movLoadRegPreInc m d idx) := by
  refine (mask_C703C000 _).trans ?_
  show Fields.toWord ⟨3, 0, false, false, false, 0, 5, 0, 0, 0⟩ = _
  rfl

theorem movLoadRegPreDec (m : MMode) (d : RegNum) (idx : RegNum) :
    Statement (.movLoadRegPreDec m d idx) := by
  refine (mask_C703C000 _).trans ?_
  show Fields.toWord ⟨3, 0, false, false, false, 0, 6, 0, 0, 0⟩ = _
  rfl

theorem movLoadIdx (m : MMode) (d : RegNum) (base : RegNum) (idx : RegNum) :
    Statement (.movLoadIdx m d base idx) := by
  refine (mask_C703C000 _).trans ?_
  show Fields.toWord ⟨3, 0, false, false, false, 0, 8, 0, 0, 0⟩ = _
  rfl

theorem movLoadIdxPostInc (m : MMode) (d : RegNum) (base : RegNum) (idx : RegNum) :
    Statement (.movLoadIdxPostInc m d base idx) := by
  refine (mask_C703C000 _).trans ?_
  show Fields.toWord ⟨3, 0, false, false, false, 0, 9, 0, 0, 0⟩ = _
  rfl

theorem movLoadIdxPostDec (m : MMode) (d : RegNum) (base : RegNum) (idx : RegNum) :
    Statement (.movLoadIdxPostDec m d base idx) := by
  refine (mask_C703C000 _).trans ?_
  show Fields.toWord ⟨3, 0, false, false, false, 0, 10, 0, 0, 0⟩ = _
  rfl

theorem movLoadIdxPreInc (m : MMode) (d : RegNum) (base : RegNum) (idx : RegNum) :
    Statement (.movLoadIdxPreInc m d base idx) := by
  refine (mask_C703C000 _).trans ?_
  show Fields.toWord ⟨3, 0, false, false, false, 0, 13, 0, 0, 0⟩ = _
  rfl

theorem movLoadIdxPreDec (m : MMode) (d : RegNum) (base : RegNum) (idx : RegNum) :
    Statement (.movLoadIdxPreDec m d base idx) := by
  refine (mask_C703C000 _).trans ?_
  show Fields.toWord ⟨3, 0, false, false, false, 0, 14, 0, 0, 0⟩ = _
  rfl

theorem movLoadLockedReg (m : MMode) (d : RegNum) (idx : RegNum) :
    Statement (.movLoadLockedReg m d idx) := by
  refine (mask_C703C000 _).trans ?_
  show Fields.toWord ⟨3, 0, false, true, false, 0, 0, 0, 0, 0⟩ = _
  rfl

theorem movLoadLockedRegPostInc (m : MMode) (d : RegNum) (idx : RegNum) :
    Statement (.movLoadLockedRegPostInc m d idx) := by
  refine (mask_C703C000 _).trans ?_
  show Fields.toWord ⟨3, 0, false, true, false, 0, 1, 0, 0, 0⟩ = _
  rfl

theorem movLoadLockedRegPostDec (m : MMode) (d : RegNum) (idx : RegNum) :
    Statement (.movLoadLockedRegPostDec m d idx) := by
  refine (mask_C703C000 _).trans ?_
  show Fields.toWord ⟨3, 0, false, true, false, 0, 2, 0, 0, 0⟩ = _
  rfl

theorem movLoadLockedRegPreInc (m : MMode) (d : RegNum) (idx : RegNum) :
    Statement (.movLoadLockedRegPreInc m d idx) := by
  refine (mask_C703C000 _).trans ?_
  show Fields.toWord ⟨3, 0, false, true, false, 0, 5, 0, 0, 0⟩ = _
  rfl

theorem movLoadLockedRegPreDec (m : MMode) (d : RegNum) (idx : RegNum) :
    Statement (.movLoadLockedRegPreDec m d idx) := by
  refine (mask_C703C000 _).trans ?_
  show Fields.toWord ⟨3, 0, false, true, false, 0, 6, 0, 0, 0⟩ = _
  rfl

theorem movLoadLockedIdx (m : MMode) (d : RegNum) (base : RegNum) (idx : RegNum) :
    Statement (.movLoadLockedIdx m d base idx) := by
  refine (mask_C703C000 _).trans ?_
  show Fields.toWord ⟨3, 0, false, true, false, 0, 8, 0, 0, 0⟩ = _
  rfl

theorem movLoadLockedIdxPostInc (m : MMode) (d : RegNum) (base : RegNum) (idx : RegNum) :
    Statement (.movLoadLockedIdxPostInc m d base idx) := by
  refine (mask_C703C000 _).trans ?_
  show Fields.toWord ⟨3, 0, false, true, false, 0, 9, 0, 0, 0⟩ = _
  rfl

theorem movLoadLockedIdxPostDec (m : MMode) (d : RegNum) (base : RegNum) (idx : RegNum) :
    Statement (.movLoadLockedIdxPostDec m d base idx) := by
  refine (mask_C703C000 _).trans ?_
  show Fields.toWord ⟨3, 0, false, true, false, 0, 10, 0, 0, 0⟩ = _
  rfl

theorem movLoadLockedIdxPreInc (m : MMode) (d : RegNum) (base : RegNum) (idx : RegNum) :
    Statement (.movLoadLockedIdxPreInc m d base idx) := by
  refine (mask_C703C000 _).trans ?_
  show Fields.toWord ⟨3, 0, false, true, false, 0, 13, 0, 0, 0⟩ = _
  rfl

theorem movLoadLockedIdxPreDec (m : MMode) (d : RegNum) (base : RegNum) (idx : RegNum) :
    Statement (.movLoadLockedIdxPreDec m d base idx) := by
  refine (mask_C703C000 _).trans ?_
  show Fields.toWord ⟨3, 0, false, true, false, 0, 14, 0, 0, 0⟩ = _
  rfl

theorem movStoreReg (m : MMode) (d : RegNum) (idx : RegNum) :
    Statement (.movStoreReg m d idx) := by
  refine (mask_C703C000 _).trans ?_
  show Fields.toWord ⟨2, 0, false, false, false, 0, 0, 0, 0, 0⟩ = _
  rfl

theorem movStoreRegPostInc (m : MMode) (d : RegNum) (idx : RegNum) :
    Statement (.movStoreRegPostInc m d idx) := by
  refine (mask_C703C000 _).trans ?_
  show Fields.toWord ⟨2, 0, false, false, false, 0, 1, 0, 0, 0⟩ = _
  rfl

theorem movStoreRegPostDec (m : MMode) (d : RegNum) (idx : RegNum) :
    Statement (.movStoreRegPostDec m d idx) := by
  refine (mask_C703C000 _).trans ?_
  show Fields.toWord ⟨2, 0, false, false, false, 0, 2, 0, 0, 0⟩ = _
  rfl

theorem movStoreRegPreInc (m : MMode) (d : RegNum) (idx : RegNum) :
    Statement (.movStoreRegPreInc m d idx) := by
  refine (mask_C703C000 _).trans ?_
  show Fields.toWord ⟨2, 0, false, false, false, 0, 5, 0, 0, 0⟩ = _
  rfl

theorem movStoreRegPreDec (m : MMode) (d : RegNum) (idx : RegNum) :
    Statement (.movStoreRegPreDec m d idx) := by
  refine (mask_C703C000 _).trans ?_
  show Fields.toWord ⟨2, 0, false, false, false, 0, 6, 0, 0, 0⟩ = _
  rfl

theorem movStoreIdx (m : MMode) (d : RegNum) (base : RegNum) (idx : RegNum) :
    Statement (.movStoreIdx m d base idx) := by
  refine (mask_C703C000 _).trans ?_
  show Fields.toWord ⟨2, 0, false, false, false, 0, 8, 0, 0, 0⟩ = _
  rfl

theorem movStoreIdxPostInc (m : MMode) (d : RegNum) (base : RegNum) (idx : RegNum) :
    Statement (.movStoreIdxPostInc m d base idx) := by
  refine (mask_C703C000 _).trans ?_
  show Fields.toWord ⟨2, 0, false, false, false, 0, 9, 0, 0, 0⟩ = _
  rfl

theorem movStoreIdxPostDec (m : MMode) (d : RegNum) (base : RegNum) (idx : RegNum) :
    Statement (.movStoreIdxPostDec m d base idx) := by
  refine (mask_C703C000 _).trans ?_
  show Fields.toWord ⟨2, 0, false, false, false, 0, 10, 0, 0, 0⟩ = _
  rfl

theorem movStoreIdxPreInc (m : MMode) (d : RegNum) (base : RegNum) (idx : RegNum) :
    Statement (.movStoreIdxPreInc m d base idx) := by
  refine (mask_C703C000 _).trans ?_
  show Fields.toWord ⟨2, 0, false, false, false, 0, 13, 0, 0, 0⟩ = _
  rfl

theorem movStoreIdxPreDec (m : MMode) (d : RegNum) (base : RegNum) (idx : RegNum) :
    Statement (.movStoreIdxPreDec m d base idx) := by
  refine (mask_C703C000 _).trans ?_
  show Fields.toWord ⟨2, 0, false, false, false, 0, 14, 0, 0, 0⟩ = _
  rfl

theorem movStoreCondReg (m : MMode) (d : RegNum) (idx : RegNum) :
    Statement (.movStoreCondReg m d idx) := by
  refine (mask_C703C000 _).trans ?_
  show Fields.toWord ⟨2, 0, false, true, false, 0, 0, 0, 0, 0⟩ = _
  rfl

theorem movStoreCondRegPostInc (m : MMode) (d : RegNum) (idx : RegNum) :
    Statement (.movStoreCondRegPostInc m d idx) := by
  refine (mask_C703C000 _).trans ?_
  show Fields.toWord ⟨2, 0, false, true, false, 0, 1, 0, 0, 0⟩ = _
  rfl

theorem movStoreCondRegPostDec (m : MMode) (d : RegNum) (idx : RegNum) :
    Statement (.movStoreCondRegPostDec m d idx) := by
  refine (mask_C703C000 _).trans ?_
  show Fields.toWord ⟨2, 0, false, true, false, 0, 2, 0, 0, 0⟩ = _
  rfl

theorem movStoreCondRegPreInc (m : MMode) (d : RegNum) (idx : RegNum) :
    Statement (.movStoreCondRegPreInc m d idx) := by
  refine (mask_C703C000 _).trans ?_
  show Fields.toWord ⟨2, 0, false, true, false, 0, 5, 0, 0, 0⟩ = _
  rfl

theorem movStoreCondRegPreDec (m : MMode) (d : RegNum) (idx : RegNum) :
    Statement (.movStoreCondRegPreDec m d idx) := by
  refine (mask_C703C000 _).trans ?_
  show Fields.toWord ⟨2, 0, false, true, false, 0, 6, 0, 0, 0⟩ = _
  rfl

theorem movStoreCondIdx (m : MMode) (d : RegNum) (base : RegNum) (idx : RegNum) :
    Statement (.movStoreCondIdx m d base idx) := by
  refine (mask_C703C000 _).trans ?_
  show Fields.toWord ⟨2, 0, false, true, false, 0, 8, 0, 0, 0⟩ = _
  rfl

theorem movStoreCondIdxPostInc (m : MMode) (d : RegNum) (base : RegNum) (idx : RegNum) :
    Statement (.movStoreCondIdxPostInc m d base idx) := by
  refine (mask_C703C000 _).trans ?_
  show Fields.toWord ⟨2, 0, false, true, false, 0, 9, 0, 0, 0⟩ = _
  rfl

theorem movStoreCondIdxPostDec (m : MMode) (d : RegNum) (base : RegNum) (idx : RegNum) :
    Statement (.movStoreCondIdxPostDec m d base idx) := by
  refine (mask_C703C000 _).trans ?_
  show Fields.toWord ⟨2, 0, false, true, false, 0, 10, 0, 0, 0⟩ = _
  rfl

theorem movStoreCondIdxPreInc (m : MMode) (d : RegNum) (base : RegNum) (idx : RegNum) :
    Statement (.movStoreCondIdxPreInc m d base idx) := by
  refine (mask_C703C000 _).trans ?_
  show Fields.toWord ⟨2, 0, false, true, false, 0, 13, 0, 0, 0⟩ = _
  rfl

theorem movStoreCondIdxPreDec (m : MMode) (d : RegNum) (base : RegNum) (idx : RegNum) :
    Statement (.movStoreCondIdxPreDec m d base idx) := by
  refine (mask_C703C000 _).trans ?_
  show Fields.toWord ⟨2, 0, false, true, false, 0, 14, 0, 0, 0⟩ = _
  rfl

theorem movRegReg (m : MMode) (d : RegNum) (s : RegNum) :
    Statement (.movRegReg m d s) := by
  refine (mask_C703C000 _).trans ?_
  show Fields.toWord ⟨3, 0, false, false, true, 0, 0, 0, 0, 0⟩ = _
  rfl

theorem movRegSpc (m : MMode) (d : RegNum) (s : RegNum) :
    Statement (.movRegSpc m d s) := by
  refine (mask_C703C000 _).trans ?_
  show Fields.toWord ⟨3, 0, false, false, true, 0, 1, 0, 0, 0⟩ = _
  rfl

theorem movSpcReg (m : MMode) (d : RegNum) (s : RegNum) :
    Statement (.movSpcReg m d s) := by
  refine (mask_C703C000 _).trans ?_
  show Fields.toWord ⟨3, 0, false, false, true, 0, 2, 0, 0, 0⟩ = _
  rfl

theorem movRegDsp (m : MMode) (d : RegNum) (s : RegNum) :
    Statement (.movRegDsp m d s) := by
  refine (mask_C703C000 _).trans ?_
  show Fields.toWord ⟨3, 0, false, false, true, 0, 3, 0, 0, 0⟩ = _
  rfl

theorem movDspReg (m : MMode) (d : RegNum) (s : RegNum) :
    Statement (.movDspReg m d s) := by
  refine (mask_C703C000 _).trans ?_
  show Fields.toWord ⟨3, 0, false, false, true, 0, 4, 0, 0, 0⟩ = _
  rfl

theorem movRegFpr (m : MMode) (d : RegNum) (s : RegNum) :
    Statement (.movRegFpr m d s) := by
  refine (mask_C703C000 _).trans ?_
  show Fields.toWord ⟨3, 0, false, false, true, 0, 14, 0, 0, 0⟩ = _
  rfl

theorem movFprReg (m : MMode) (d : RegNum) (s : RegNum) :
    Statement (.movFprReg m d s) := by
  refine (mask_C703C000 _).trans ?_
  show Fields.toWord ⟨3, 0, false, false, true, 0, 15, 0, 0, 0⟩ = _
  rfl

theorem movImm (m : MMode) (u : Bool) (d : RegNum) (imm : BitVec 18) :
    Statement (.movImm m u d imm) := by
  refine (mask_C5000000 _).trans ?_
  show Fields.toWord ⟨3, 0, true, false, true, 0, 0, 0, 0, 0⟩ = _
  rfl

end Sys2Proof.Laws.TableRow
end

