-- ==== Sys2Proof/Laws/Registers.lean ====
section
/-! SUPPORT. Register files: the bits of a cell after a partial write, which cells a datum occupies, reads bit by bit,
reads after writes, and the sizes every write keeps. -/
namespace Sys2Proof.Machine

/-! ## One cell -/

theorem getLsbD_eq_testBit {w : Nat} (x : BitVec w) (b : Nat) : x.getLsbD b = x.toNat.testBit b := rfl

/-- The bits of a partial write: the low ones from the value, the others from the old contents. -/
theorem setLow_bit (p : Nat) (old : Reg) (v b : Nat) (hb : b < 1024) :
    (setLow p old v).getLsbD b = if b < p then v.testBit b else old.getLsbD b := by
  unfold setLow
  rw [BitVec.getLsbD_ofNat, Nat.mul_comm, Nat.testBit_two_pow_mul_add _ (Nat.mod_lt _ (Nat.two_pow_pos p))]
  by_cases h : b < p
  · simp [h, hb, Nat.testBit_mod_two_pow]
  · rw [if_neg h, if_neg h, Nat.testBit_div_two_pow, Nat.sub_add_cancel (Nat.le_of_not_lt h), decide_eq_true hb]
    rfl

/-- A partial write of a register of `width` bits keeps it in `width` bits. -/
theorem setLow_lt {p width : Nat} {old : Reg} (v : Nat) (hold : old.toNat < 2 ^ width) (hp : p ≤ width) :
    (setLow p old v).toNat < 2 ^ width := by
  unfold setLow
  rw [BitVec.toNat_ofNat]
  refine Nat.lt_of_le_of_lt (Nat.mod_le _ _) ?_
  have h1 : old.toNat / 2 ^ p < 2 ^ (width - p) := by
    rw [Nat.div_lt_iff_lt_mul (Nat.two_pow_pos p), ← pow_add, Nat.sub_add_cancel hp]; exact hold
  have h2 : v % 2 ^ p < 2 ^ p := Nat.mod_lt _ (Nat.two_pow_pos p)
  calc old.toNat / 2 ^ p * 2 ^ p + v % 2 ^ p < (old.toNat / 2 ^ p + 1) * 2 ^ p := by rw [Nat.add_mul, Nat.one_mul]; omega
    _ ≤ 2 ^ (width - p) * 2 ^ p := Nat.mul_le_mul_right _ h1
    _ = 2 ^ width := by rw [← pow_add, Nat.sub_add_cancel hp]

/-- The later of two writes of the same width wins. -/
theorem setLow_setLow (p : Nat) (old : Reg) (v v' : Nat) : setLow p (setLow p old v) v' = setLow p old v' := by
  apply BitVec.eq_of_getLsbD_eq
  intro b hb
  rw [setLow_bit _ _ _ _ hb, setLow_bit _ _ _ _ hb, setLow_bit _ _ _ _ hb]
  split <;> rfl

/-! ## Sizes -/

@[simp] theorem scatter_length (file : List Reg) (base n c k i w v : Nat) :
    (scatter file base n c k i w v).length = file.length := by
  induction k generalizing file i w v with
  | zero => rfl
  | succ k ih => simp [scatter, ih]

@[simp] theorem writeFile_length {w : Nat} (file : List Reg) (base n c i : Nat) (v : BitVec w) :
    (writeFile file base n c i v).length = file.length := scatter_length _ _ _ _ _ _ _ _

theorem getD_mem_or_default (file : List Reg) (x : Nat) : file.getD x 0 ∈ file ∨ file.getD x 0 = 0 := by
  by_cases h : x < file.length
  · left; rw [List.getD_eq_getElem _ _ h]; exact List.getElem_mem h
  · right; rw [List.getD_eq_default _ _ (by omega)]

theorem scatter_bound {width : Nat} {file : List Reg} (base n : Nat) {c : Nat} (k i w v : Nat)
    (h : ∀ r ∈ file, r.toNat < 2 ^ width) (hc : c ≤ width) :
    ∀ r ∈ scatter file base n c k i w v, r.toNat < 2 ^ width := by
  induction k generalizing file i w v with
  | zero => exact h
  | succ k ih =>
    apply ih
    intro r hr
    rcases List.mem_or_eq_of_mem_set hr with hr | rfl
    · exact h r hr
    · apply setLow_lt _ _ (by omega)
      rcases getD_mem_or_default file (base + i % n) with hm | hm
      · exact h _ hm
      · rw [hm]
        show (BitVec.ofNat 1024 0).toNat < 2 ^ width
        rw [BitVec.toNat_ofNat, Nat.zero_mod]
        exact Nat.two_pow_pos width

/-- A write keeps every register of the file in its width. -/
theorem writeFile_bound {w width : Nat} {file : List Reg} (base n : Nat) {c : Nat} (i : Nat) (v : BitVec w)
    (h : ∀ r ∈ file, r.toNat < 2 ^ width) (hc : c ≤ width) :
    ∀ r ∈ writeFile file base n c i v, r.toNat < 2 ^ width := scatter_bound _ _ _ _ _ _ h hc

/-! ## Which cells a write changes -/

theorem scatter_other {file : List Reg} {base n c k i w v x : Nat} (h : ∀ j < k, x ≠ base + (i + j) % n) :
    (scatter file base n c k i w v).getD x 0 = file.getD x 0 := by
  induction k generalizing file i w v with
  | zero => rfl
  | succ k ih =>
    simp only [scatter]
    rw [ih (fun j hj => by have := h (j + 1) (by omega); rwa [show i + 1 + j = i + (j + 1) by omega]),
      List.getD_eq_getElem?_getD, List.getElem?_set_ne (Ne.symm (by simpa using h 0 (by omega))),
      ← List.getD_eq_getElem?_getD]

/-- A register no part of the datum falls on keeps its value. -/
theorem writeFile_other {w : Nat} {file : List Reg} {base n c i x : Nat} (v : BitVec w)
    (h : ∀ j < pieces w c, x ≠ base + (i + j) % n) : (writeFile file base n c i v).getD x 0 = file.getD x 0 :=
  scatter_other h

theorem getD_set_same {file : List Reg} {x : Nat} (hx : x < file.length) (r : Reg) : (file.set x r).getD x 0 = r := by
  rw [List.getD_eq_getElem _ _ (by simpa using hx), List.getElem_set_self]

theorem getD_set_other (file : List Reg) {x y : Nat} (h : x ≠ y) (r : Reg) :
    (file.set x r).getD y 0 = file.getD y 0 := by
  rw [List.getD_eq_getElem?_getD, List.getD_eq_getElem?_getD, List.getElem?_set_ne h]

/-- The cell the `j`-th part of a datum falls on, where the datum fits in the file. -/
theorem scatter_hit {file : List Reg} {base n c k i w v j : Nat} (hn : 0 < n) (hlen : base + n ≤ file.length) (hj : j < k)
    (hk : k ≤ n) :
    (scatter file base n c k i w v).getD (base + (i + j) % n) 0 =
      setLow (min c (w - c * j)) (file.getD (base + (i + j) % n) 0) (v / 2 ^ (c * j)) := by
  induction k generalizing file i w v j with
  | zero => omega
  | succ k ih =>
    simp only [scatter]
    have hlt := Nat.mod_lt i hn
    cases j with
    | zero =>
      rw [scatter_other, Nat.add_zero, getD_set_same (by omega)]
      · simp
      · intro j' hj' he
        have h1 : (i + 1 + j') % n = i % n := by simpa using (Nat.add_left_cancel he).symm
        have h2 : (i + (1 + j')) % n = (i + 0) % n := by simpa [Nat.add_assoc] using h1
        have h3 := Nat.ModEq.add_left_cancel' i h2
        have h4 : (1 + j') % n = 0 := by simpa [Nat.ModEq] using h3
        have := Nat.le_of_dvd (by omega) (Nat.dvd_of_mod_eq_zero h4)
        omega
    | succ j =>
      have hi : i + (j + 1) = i + 1 + j := by omega
      rw [hi, ih (by simpa using hlen) (by omega) (by omega), getD_set_other]
      · congr 1
        · congr 1; rw [Nat.mul_succ]; omega
        · rw [Nat.div_div_eq_div_mul, ← pow_add, Nat.mul_succ, Nat.add_comm]
      · intro he
        have h1 : (i + 0) % n = (i + (1 + j)) % n := by simpa [Nat.add_assoc] using Nat.add_left_cancel he
        have h3 := Nat.ModEq.add_left_cancel' i h1
        have h4 : (1 + j) % n = 0 := by simpa [Nat.ModEq] using h3.symm
        have := Nat.le_of_dvd (by omega) (Nat.dvd_of_mod_eq_zero h4)
        omega

/-! ## Reads bit by bit -/

theorem gather_testBit (file : List Reg) (base n : Nat) {c : Nat} (hc : 0 < c) (k i b : Nat) :
    (gather file base n c k i).testBit b =
      (decide (b < c * k) && (file.getD (base + (i + b / c) % n) 0).getLsbD (b % c)) := by
  induction k generalizing i b with
  | zero => simp [gather]
  | succ k ih =>
    simp only [gather]
    rw [Nat.add_comm, Nat.testBit_two_pow_mul_add _ (Nat.mod_lt _ (Nat.two_pow_pos c))]
    by_cases h : b < c
    · have h2 : b < c * (k + 1) := Nat.lt_of_lt_of_le h (Nat.le_mul_of_pos_right c (by omega))
      simp [h, h2, Nat.testBit_mod_two_pow, Nat.div_eq_of_lt h, Nat.mod_eq_of_lt h, getLsbD_eq_testBit]
    · have h1 : b - c < c * k ↔ b < c * (k + 1) := by rw [Nat.mul_succ]; omega
      have hd : b / c = (b - c) / c + 1 := by
        rw [← Nat.add_div_right _ hc, Nat.sub_add_cancel (Nat.le_of_not_lt h)]
      have hm : (b - c) % c = b % c := by
        conv_rhs => rw [← Nat.sub_add_cancel (Nat.le_of_not_lt h), Nat.add_mod_right]
      rw [if_neg h, ih, hm, hd, show i + 1 + (b - c) / c = i + ((b - c) / c + 1) by omega]
      simp [h1]

theorem lt_mul_pieces {w c b : Nat} (hc : 0 < c) (hb : b < w) : b < c * pieces w c := by
  unfold pieces
  have h := Nat.div_add_mod (w + c - 1) c
  have hm := Nat.mod_lt (w + c - 1) hc
  omega

/-- Bit `b` of a read is bit `b mod c` of the register `b / c` places on. -/
theorem readFile_bit (file : List Reg) (base n : Nat) {c : Nat} (hc : 0 < c) (w i b : Nat) :
    (readFile file base n c w i).getLsbD b =
      (decide (b < w) && (file.getD (base + (i + b / c) % n) 0).getLsbD (b % c)) := by
  unfold readFile
  rw [BitVec.getLsbD_ofNat, gather_testBit _ _ _ hc]
  by_cases hb : b < w
  · simp [hb, lt_mul_pieces hc hb]
  · simp [hb]

theorem div_lt_pieces {w c b : Nat} (hc : 0 < c) (hb : b < w) : b / c < pieces w c :=
  (Nat.div_lt_iff_lt_mul hc).2 (by rw [Nat.mul_comm]; exact lt_mul_pieces hc hb)

/-- A read of the register written gives the datum, where it fits in the file. -/
theorem readFile_writeFile_same {w : Nat} {file : List Reg} {base n c i : Nat} (v : BitVec w) (hc : 0 < c) (hc' : c ≤ 1024)
    (hn : 0 < n) (hlen : base + n ≤ file.length) (hk : pieces w c ≤ n) :
    readFile (writeFile file base n c i v) base n c w i = v := by
  apply BitVec.eq_of_getLsbD_eq
  intro b hb
  have hm := Nat.mod_lt b hc
  have hd := Nat.div_add_mod b c
  rw [readFile_bit _ _ _ hc, writeFile, scatter_hit hn hlen (div_lt_pieces hc hb) hk, setLow_bit _ _ _ _ (by omega),
    if_pos (by omega), Nat.testBit_div_two_pow, show b % c + c * (b / c) = b by omega, decide_eq_true hb]
  rfl

end Sys2Proof.Machine
end

