-- ==== Sys2Proof/Tests/Slice0.lean ====
section
/-! SUPPORT. Tests: the well-formedness check refuses what it should; one word of every instruction, written out field by
field from 30_encoding.md (group, MMODE, bit 26, bit 25, bit 24, bits 23:18, AUXCODE, bits 13:12, 11:6, 5:0), decodes to
it; one step of every instruction has the outcome its example in 95_test_vectors.md prints; and for every statement of
Certificates/Slice0/Obligations.lean a concrete state and operands that meet its hypotheses. -/
namespace Sys2Proof.Tests
open Sys2Proof Sys2Proof.Machine
set_option Elab.async false

/-! ## WellFormed -/

theorem test_wellFormed_refuses_fext_b : ¬WellFormed (.fext .b 3) := by simp [WellFormed, MMode.isFpWidth]

theorem test_wellFormed_refuses_fext_2 : ¬WellFormed (.fext .s2 3) := by simp [WellFormed, MMode.isFpWidth]

theorem test_wellFormed_refuses_fsqz_4 : ¬WellFormed (.fsqz .s4 3) := by simp [WellFormed, MMode.isFpWidth]

theorem test_wellFormed_refuses_fsqz_b : ¬WellFormed (.fsqz .b 3) := by simp [WellFormed, MMode.isFpWidth]

theorem test_wellFormed_takes_fext_1 : WellFormed (.fext .s1 3) := rfl

/-! ## Decoding -/

theorem test_decode_add :
    decode 0b00_010_0_1_0_100011_0000_00_010010_000000 = .ok (.addR .w true 35 18) ∧
    decode 0b00_010_1_1_0_100011_0000_11_011011_101011 = .ok (.addI .w true 35 0x36eb) := by decide

theorem test_decode_sub :
    decode 0b00_010_0_1_0_100011_0001_00_010010_000000 = .ok (.subR .w true 35 18) ∧
    decode 0b00_010_1_1_0_100011_0001_11_011011_101011 = .ok (.subI .w true 35 0x36eb) := by decide

theorem test_decode_mul :
    decode 0b00_010_0_1_0_100011_0010_00_010010_000000 = .ok (.mulR .w true 35 18) ∧
    decode 0b00_010_1_1_0_100011_0010_11_011011_101011 = .ok (.mulI .w true 35 0x36eb) := by decide

theorem test_decode_div :
    decode 0b00_010_0_1_0_100011_0011_00_010010_000000 = .ok (.divR .w true 35 18) ∧
    decode 0b00_010_1_1_0_100011_0011_11_011011_101011 = .ok (.divI .w true 35 0x36eb) := by decide

theorem test_decode_sl :
    decode 0b00_010_0_1_0_100011_0100_00_010010_000000 = .ok (.slR .w true 35 18) ∧
    decode 0b00_010_1_1_0_100011_0100_11_011011_101011 = .ok (.slI .w true 35 0x36eb) := by decide

theorem test_decode_sr :
    decode 0b00_010_0_1_0_100011_0101_00_010010_000000 = .ok (.srR .w true 35 18) ∧
    decode 0b00_010_1_1_0_100011_0101_11_011011_101011 = .ok (.srI .w true 35 0x36eb) := by decide

theorem test_decode_rl :
    decode 0b00_010_0_0_0_100011_0110_00_010010_000000 = .ok (.rlR .w 35 18) ∧
    decode 0b00_010_1_0_0_100011_0110_11_011011_101011 = .ok (.rlI .w 35 0x36eb) := by decide

theorem test_decode_rr :
    decode 0b00_010_0_1_0_100011_0110_00_010010_000000 = .ok (.rrR .w 35 18) ∧
    decode 0b00_010_1_1_0_100011_0110_11_011011_101011 = .ok (.rrI .w 35 0x36eb) := by decide

theorem test_decode_and :
    decode 0b00_010_0_1_0_100011_0111_00_010010_000000 = .ok (.andR .w 35 18) ∧
    decode 0b00_010_1_1_0_100011_0111_11_011011_101011 = .ok (.andI .w true 35 0x36eb) := by decide

theorem test_decode_nand :
    decode 0b00_010_0_1_0_100011_1000_00_010010_000000 = .ok (.nandR .w 35 18) ∧
    decode 0b00_010_1_1_0_100011_1000_11_011011_101011 = .ok (.nandI .w true 35 0x36eb) := by decide

theorem test_decode_or :
    decode 0b00_010_0_1_0_100011_1001_00_010010_000000 = .ok (.orR .w 35 18) ∧
    decode 0b00_010_1_1_0_100011_1001_11_011011_101011 = .ok (.orI .w true 35 0x36eb) := by decide

theorem test_decode_xor :
    decode 0b00_010_0_1_0_100011_1010_00_010010_000000 = .ok (.xorR .w 35 18) ∧
    decode 0b00_010_1_1_0_100011_1010_11_011011_101011 = .ok (.xorI .w true 35 0x36eb) := by decide

theorem test_decode_sb :
    decode 0b00_010_0_0_0_100011_1011_00_010010_000000 = .ok (.sbR .w 35 18) ∧
    decode 0b00_010_1_0_0_100011_1011_11_011011_101011 = .ok (.sbI .w 35 0x36eb) := by decide

theorem test_decode_rb :
    decode 0b00_010_0_1_0_100011_1011_00_010010_000000 = .ok (.rbR .w 35 18) ∧
    decode 0b00_010_1_1_0_100011_1011_11_011011_101011 = .ok (.rbI .w 35 0x36eb) := by decide

theorem test_decode_tb :
    decode 0b00_010_0_0_0_100011_1100_00_010010_000000 = .ok (.tbR .w 35 18) ∧
    decode 0b00_010_1_0_0_100011_1100_11_011011_101011 = .ok (.tbI .w 35 0x36eb) := by decide

theorem test_decode_rvb :
    decode 0b00_010_0_1_0_100011_1100_00_010010_000000 = .ok (.rvbR .w 35 18) ∧
    decode 0b00_010_1_1_0_100011_1100_11_011011_101011 = .ok (.rvbI .w 35 0x36eb) := by decide

theorem test_decode_mad :
    decode 0b00_010_0_1_0_100011_1110_00_010010_001001 = .ok (.madR .w true 35 18 9) ∧
    decode 0b00_010_1_1_0_100011_1110_10_010010_100100 = .ok (.madI .w true 35 18 0xa4) := by decide

theorem test_decode_msu :
    decode 0b00_010_0_1_0_100011_1111_00_010010_001001 = .ok (.msuR .w true 35 18 9) ∧
    decode 0b00_010_1_1_0_100011_1111_10_010010_100100 = .ok (.msuI .w true 35 18 0xa4) := by decide

theorem test_decode_fadd :
    decode 0b00_000_0_0_1_100011_0000_00_010010_000000 = .ok (.fadd 35 18) := by decide

theorem test_decode_fsub :
    decode 0b00_000_0_0_1_100011_0001_00_010010_000000 = .ok (.fsub 35 18) := by decide

theorem test_decode_fmul :
    decode 0b00_000_0_0_1_100011_0010_00_010010_000000 = .ok (.fmul 35 18) := by decide

theorem test_decode_fdiv :
    decode 0b00_000_0_0_1_100011_0011_00_010010_000000 = .ok (.fdiv 35 18) := by decide

theorem test_decode_frem :
    decode 0b00_000_0_0_1_100011_0100_00_010010_000000 = .ok (.frem 35 18) := by decide

theorem test_decode_fcmp :
    decode 0b00_000_0_0_1_100011_0101_00_010010_000000 = .ok (.fcmp 35 18) := by decide

theorem test_decode_fsqr :
    decode 0b00_000_0_0_1_100011_0110_00_000000_000000 = .ok (.fsqr 35) := by decide

theorem test_decode_fabs :
    decode 0b00_000_0_0_1_100011_0111_00_000000_000000 = .ok (.fabs 35) := by decide

theorem test_decode_fneg :
    decode 0b00_000_0_0_1_100011_1000_00_000000_000000 = .ok (.fneg 35) := by decide

theorem test_decode_frnd :
    decode 0b00_000_0_0_1_100011_1001_00_000000_000000 = .ok (.frnd 35) := by decide

theorem test_decode_fmad :
    decode 0b00_000_0_0_1_100011_1110_00_010010_001001 = .ok (.fmad 35 18 9) := by decide

theorem test_decode_fmsu :
    decode 0b00_000_0_0_1_100011_1111_00_010010_001001 = .ok (.fmsu 35 18 9) := by decide

theorem test_decode_ff2i :
    decode 0b00_010_0_1_1_100011_1010_00_000000_000000 = .ok (.ff2i .w true 35) := by decide

theorem test_decode_fi2f :
    decode 0b00_010_0_1_1_100011_1011_00_000000_000000 = .ok (.fi2f .w true 35) := by decide

theorem test_decode_fext :
    decode 0b00_010_0_0_1_100011_1100_00_000000_000000 = .ok (.fext .w 35) := by decide

theorem test_decode_fsqz :
    decode 0b00_010_0_0_1_100011_1101_00_000000_000000 = .ok (.fsqz .w 35) := by decide

theorem test_decode_jmp :
    decode 0b01_000_0_1_1_000000_0000_00_101001_000000 = .ok (.jmpR true true 41) ∧
    decode 0b01_000_1_1_1_101111_0000_11_111111_111101 = .ok (.jmpO true true 0xbfffd) := by decide

theorem test_decode_bz :
    decode 0b01_010_0_1_1_100010_0001_00_101001_000000 = .ok (.bzR .w true true 34 41) ∧
    decode 0b01_010_1_1_1_100010_0001_10_000000_011001 = .ok (.bzO .w true true 34 0x2019) := by decide

theorem test_decode_bnz :
    decode 0b01_010_0_1_1_100010_0010_00_101001_000000 = .ok (.bnzR .w true true 34 41) ∧
    decode 0b01_010_1_1_1_100010_0010_10_000000_011001 = .ok (.bnzO .w true true 34 0x2019) := by decide

theorem test_decode_bm :
    decode 0b01_010_0_1_1_100010_0011_00_101001_000000 = .ok (.bmR .w true true 34 41) ∧
    decode 0b01_010_1_1_1_100010_0011_10_000000_011001 = .ok (.bmO .w true true 34 0x2019) := by decide

theorem test_decode_bmz :
    decode 0b01_010_0_1_1_100010_0100_00_101001_000000 = .ok (.bmzR .w true true 34 41) ∧
    decode 0b01_010_1_1_1_100010_0100_10_000000_011001 = .ok (.bmzO .w true true 34 0x2019) := by decide

theorem test_decode_bnm :
    decode 0b01_010_0_1_1_100010_0101_00_101001_000000 = .ok (.bnmR .w true true 34 41) ∧
    decode 0b01_010_1_1_1_100010_0101_10_000000_011001 = .ok (.bnmO .w true true 34 0x2019) := by decide

theorem test_decode_bnmo :
    decode 0b01_010_0_1_1_100010_0110_00_101001_000000 = .ok (.bnmoR .w true true 34 41) ∧
    decode 0b01_010_1_1_1_100010_0110_10_000000_011001 = .ok (.bnmoO .w true true 34 0x2019) := by decide

theorem test_decode_bl :
    decode 0b01_010_0_1_1_100010_0111_00_101001_000000 = .ok (.blR .w true true 34 41) ∧
    decode 0b01_010_1_1_1_100010_0111_10_000000_011001 = .ok (.blO .w true true 34 0x2019) := by decide

theorem test_decode_blz :
    decode 0b01_010_0_1_1_100010_1000_00_101001_000000 = .ok (.blzR .w true true 34 41) ∧
    decode 0b01_010_1_1_1_100010_1000_10_000000_011001 = .ok (.blzO .w true true 34 0x2019) := by decide

theorem test_decode_bnl :
    decode 0b01_010_0_1_1_100010_1001_00_101001_000000 = .ok (.bnlR .w true true 34 41) ∧
    decode 0b01_010_1_1_1_100010_1001_10_000000_011001 = .ok (.bnlO .w true true 34 0x2019) := by decide

theorem test_decode_bnlo :
    decode 0b01_010_0_1_1_100010_1010_00_101001_000000 = .ok (.bnloR .w true true 34 41) ∧
    decode 0b01_010_1_1_1_100010_1010_10_000000_011001 = .ok (.bnloO .w true true 34 0x2019) := by decide

theorem test_decode_bo :
    decode 0b01_010_0_1_1_100010_1011_00_101001_000000 = .ok (.boR .w true true 34 41) ∧
    decode 0b01_010_1_1_1_100010_1011_10_000000_011001 = .ok (.boO .w true true 34 0x2019) := by decide

theorem test_decode_bno :
    decode 0b01_010_0_1_1_100010_1100_00_101001_000000 = .ok (.bnoR .w true true 34 41) ∧
    decode 0b01_010_1_1_1_100010_1100_10_000000_011001 = .ok (.bnoO .w true true 34 0x2019) := by decide

theorem test_decode_ret :
    decode 0b01_000_0_0_1_000000_1101_00_000000_000000 = .ok (.ret true) := by decide

theorem test_decode_reti :
    decode 0b01_001_0_0_1_000000_1101_00_000000_000000 = .ok (.reti true) := by decide

theorem test_decode_rete :
    decode 0b01_010_0_0_1_000000_1101_00_000000_000000 = .ok (.rete true) ∧
    decode 0b01_010_0_1_1_000000_1101_00_101001_000000 = .ok (.reteR true 41) ∧
    decode 0b01_010_1_1_1_101111_1101_11_111111_111101 = .ok (.reteO true 0xbfffd) := by decide

theorem test_decode_retn :
    decode 0b01_011_0_0_1_000000_1101_00_000000_000000 = .ok (.retn true) ∧
    decode 0b01_011_0_1_1_000000_1101_00_101001_000000 = .ok (.retnR true 41) ∧
    decode 0b01_011_1_1_1_101111_1101_11_111111_111101 = .ok (.retnO true 0xbfffd) := by decide

theorem test_decode_wait :
    decode 0b01_000_0_0_0_000000_1110_00_101001_000000 = .ok (.waitR 41) ∧
    decode 0b01_000_1_0_0_101111_1110_11_111111_111101 = .ok (.waitO 0xbfffd) := by decide

theorem test_decode_mov_LoadDisp :
    decode 0b11_010_1_0_0_100011_1010_10_000101_000101 = .ok (.movLoadDisp .w 35 5 0xa85) := by decide

theorem test_decode_mov_LoadLockedDisp :
    decode 0b11_010_1_1_0_100011_1010_10_000101_000101 = .ok (.movLoadLockedDisp .w 35 5 0xa85) := by decide

theorem test_decode_mov_StoreDisp :
    decode 0b10_010_1_0_0_100011_1010_10_000101_000101 = .ok (.movStoreDisp .w 35 5 0xa85) := by decide

theorem test_decode_mov_StoreCondDisp :
    decode 0b10_010_1_1_0_100011_1010_10_000101_000101 = .ok (.movStoreCondDisp .w 35 5 0xa85) := by decide

theorem test_decode_mov_LoadReg :
    decode 0b11_010_0_0_0_100011_0000_00_000000_100110 = .ok (.movLoadReg .w 35 38) ∧
    decode 0b11_010_0_0_0_100011_0001_00_000000_100110 = .ok (.movLoadRegPostInc .w 35 38) ∧
    decode 0b11_010_0_0_0_100011_0010_00_000000_100110 = .ok (.movLoadRegPostDec .w 35 38) ∧
    decode 0b11_010_0_0_0_100011_0101_00_000000_100110 = .ok (.movLoadRegPreInc .w 35 38) ∧
    decode 0b11_010_0_0_0_100011_0110_00_000000_100110 = .ok (.movLoadRegPreDec .w 35 38) := by decide

theorem test_decode_mov_LoadIdx :
    decode 0b11_010_0_0_0_100011_1000_00_000101_100110 = .ok (.movLoadIdx .w 35 5 38) ∧
    decode 0b11_010_0_0_0_100011_1001_00_000101_100110 = .ok (.movLoadIdxPostInc .w 35 5 38) ∧
    decode 0b11_010_0_0_0_100011_1010_00_000101_100110 = .ok (.movLoadIdxPostDec .w 35 5 38) ∧
    decode 0b11_010_0_0_0_100011_1101_00_000101_100110 = .ok (.movLoadIdxPreInc .w 35 5 38) ∧
    decode 0b11_010_0_0_0_100011_1110_00_000101_100110 = .ok (.movLoadIdxPreDec .w 35 5 38) := by decide

theorem test_decode_mov_LoadLockedReg :
    decode 0b11_010_0_1_0_100011_0000_00_000000_100110 = .ok (.movLoadLockedReg .w 35 38) ∧
    decode 0b11_010_0_1_0_100011_0001_00_000000_100110 = .ok (.movLoadLockedRegPostInc .w 35 38) ∧
    decode 0b11_010_0_1_0_100011_0010_00_000000_100110 = .ok (.movLoadLockedRegPostDec .w 35 38) ∧
    decode 0b11_010_0_1_0_100011_0101_00_000000_100110 = .ok (.movLoadLockedRegPreInc .w 35 38) ∧
    decode 0b11_010_0_1_0_100011_0110_00_000000_100110 = .ok (.movLoadLockedRegPreDec .w 35 38) := by decide

theorem test_decode_mov_LoadLockedIdx :
    decode 0b11_010_0_1_0_100011_1000_00_000101_100110 = .ok (.movLoadLockedIdx .w 35 5 38) ∧
    decode 0b11_010_0_1_0_100011_1001_00_000101_100110 = .ok (.movLoadLockedIdxPostInc .w 35 5 38) ∧
    decode 0b11_010_0_1_0_100011_1010_00_000101_100110 = .ok (.movLoadLockedIdxPostDec .w 35 5 38) ∧
    decode 0b11_010_0_1_0_100011_1101_00_000101_100110 = .ok (.movLoadLockedIdxPreInc .w 35 5 38) ∧
    decode 0b11_010_0_1_0_100011_1110_00_000101_100110 = .ok (.movLoadLockedIdxPreDec .w 35 5 38) := by decide

theorem test_decode_mov_StoreReg :
    decode 0b10_010_0_0_0_100011_0000_00_000000_100110 = .ok (.movStoreReg .w 35 38) ∧
    decode 0b10_010_0_0_0_100011_0001_00_000000_100110 = .ok (.movStoreRegPostInc .w 35 38) ∧
    decode 0b10_010_0_0_0_100011_0010_00_000000_100110 = .ok (.movStoreRegPostDec .w 35 38) ∧
    decode 0b10_010_0_0_0_100011_0101_00_000000_100110 = .ok (.movStoreRegPreInc .w 35 38) ∧
    decode 0b10_010_0_0_0_100011_0110_00_000000_100110 = .ok (.movStoreRegPreDec .w 35 38) := by decide

theorem test_decode_mov_StoreIdx :
    decode 0b10_010_0_0_0_100011_1000_00_000101_100110 = .ok (.movStoreIdx .w 35 5 38) ∧
    decode 0b10_010_0_0_0_100011_1001_00_000101_100110 = .ok (.movStoreIdxPostInc .w 35 5 38) ∧
    decode 0b10_010_0_0_0_100011_1010_00_000101_100110 = .ok (.movStoreIdxPostDec .w 35 5 38) ∧
    decode 0b10_010_0_0_0_100011_1101_00_000101_100110 = .ok (.movStoreIdxPreInc .w 35 5 38) ∧
    decode 0b10_010_0_0_0_100011_1110_00_000101_100110 = .ok (.movStoreIdxPreDec .w 35 5 38) := by decide

theorem test_decode_mov_StoreCondReg :
    decode 0b10_010_0_1_0_100011_0000_00_000000_100110 = .ok (.movStoreCondReg .w 35 38) ∧
    decode 0b10_010_0_1_0_100011_0001_00_000000_100110 = .ok (.movStoreCondRegPostInc .w 35 38) ∧
    decode 0b10_010_0_1_0_100011_0010_00_000000_100110 = .ok (.movStoreCondRegPostDec .w 35 38) ∧
    decode 0b10_010_0_1_0_100011_0101_00_000000_100110 = .ok (.movStoreCondRegPreInc .w 35 38) ∧
    decode 0b10_010_0_1_0_100011_0110_00_000000_100110 = .ok (.movStoreCondRegPreDec .w 35 38) := by decide

theorem test_decode_mov_StoreCondIdx :
    decode 0b10_010_0_1_0_100011_1000_00_000101_100110 = .ok (.movStoreCondIdx .w 35 5 38) ∧
    decode 0b10_010_0_1_0_100011_1001_00_000101_100110 = .ok (.movStoreCondIdxPostInc .w 35 5 38) ∧
    decode 0b10_010_0_1_0_100011_1010_00_000101_100110 = .ok (.movStoreCondIdxPostDec .w 35 5 38) ∧
    decode 0b10_010_0_1_0_100011_1101_00_000101_100110 = .ok (.movStoreCondIdxPreInc .w 35 5 38) ∧
    decode 0b10_010_0_1_0_100011_1110_00_000101_100110 = .ok (.movStoreCondIdxPreDec .w 35 5 38) := by decide

theorem test_decode_mov_RegReg :
    decode 0b11_010_0_0_1_100011_0000_00_000000_100110 = .ok (.movRegReg .w 35 38) := by decide

theorem test_decode_mov_RegSpc :
    decode 0b11_010_0_0_1_100011_0001_00_000000_100110 = .ok (.movRegSpc .w 35 38) := by decide

theorem test_decode_mov_SpcReg :
    decode 0b11_010_0_0_1_100011_0010_00_000000_100110 = .ok (.movSpcReg .w 35 38) := by decide

theorem test_decode_mov_RegDsp :
    decode 0b11_010_0_0_1_100011_0011_00_000000_100110 = .ok (.movRegDsp .w 35 38) := by decide

theorem test_decode_mov_DspReg :
    decode 0b11_010_0_0_1_100011_0100_00_000000_100110 = .ok (.movDspReg .w 35 38) := by decide

theorem test_decode_mov_RegFpr :
    decode 0b11_010_0_0_1_100011_1110_00_000000_100110 = .ok (.movRegFpr .w 35 38) := by decide

theorem test_decode_mov_FprReg :
    decode 0b11_010_0_0_1_100011_1111_00_000000_100110 = .ok (.movFprReg .w 35 38) := by decide

theorem test_decode_mov_Imm :
    decode 0b11_010_1_1_1_100011_1110_10_111111_111011 = .ok (.movImm .w true 35 0x3affb) := by decide

/-- The decoder the host asks: an instruction of two operand words, and a word that is none. -/
theorem test_decodeTableWord : decodeTableWord 32 0x140C76EB = some (.subI .w false 3 0x36EB) ∧
    decodeTableWord 32 0x00034000 = none := by decide

/-! ## One step of every instruction: the examples of 95_test_vectors.md -/

/-- REF32 with IC = 5, the word `w` at byte address 20 and the registers of the list. -/
def at5 (w : Nat) (gs : List (Nat × Nat)) : State :=
  { State.reset with
    ic := 5
    gpr := gs.foldl (fun f g => f.set g.1 (BitVec.ofNat 1024 g.2)) State.reset.gpr
    mem := memSetAll [] [20, 21, 22, 23] (leBytes 4 w) }

/-- The `n` bytes of `v` at address `a`, least significant first. -/
def poke (s : State) (a n v : Nat) : State :=
  { s with mem := memSetAll s.mem ((List.range n).map fun k => a + k) (leBytes n v) }

/-- The `n` bytes at address `a` as a number. -/
def peek (s : State) (a n : Nat) : Nat := leValue ((List.range n).map fun k => memByte s.mem (a + k))

/-- What `f` says of the state after one step. -/
def after {α : Type} (s : State) (f : State → α) : Option α :=
  match step s with
  | .next t => some (f t)
  | _ => none

/-- Example 1, `MOV_H reg3, reg2[5]`. -/
theorem test_example_1_mov :
    after (poke (at5 0xCC0C0085 [(2, 0x00000018), (3, 0xFFFF0000)]) 0x1C 4 0xABCDEF01)
        (fun t => (t.gpr.getD 3 0, t.ic)) = some (0xFFFFCDEF, 0x6) := by decide +kernel

/-- Example 2, `MOV_W [reg2], reg3`. -/
theorem test_example_2_mov :
    after (at5 0x900C0002 [(2, 0x0000001A), (3, 0x11223344)])
        (fun t => (peek t 0x1A 4, t.ic)) = some (0x11223344, 0x6) := by decide +kernel

/-- Example 3, `MOV_D reg3, reg2[++reg1]`. -/
theorem test_example_3_mov :
    after (poke (at5 0xD80F4081 [(1, 0x00000004), (2, 0x00000020)]) 0x2C 8 0x2222222211111111)
        (fun t => (t.gpr.getD 1 0, t.gpr.getD 3 0, t.gpr.getD 4 0)) = some (0x0000000C, 0x11111111, 0x22222222) := by decide +kernel

/-- Example 4, `MOV_B spc15, reg3`. -/
theorem test_example_4_mov :
    after { (at5 0xC13C8003 [(3, 0x0000000C)]) with scr := 0xFFFF0001 }
        (fun t => (t.scr, t.ic)) = some (0xFFFF000C, 0x6) := by decide +kernel

/-- Example 5, `MOV_W reg3, -5`. -/
theorem test_example_5_mov :
    after (at5 0xD50FFFFB [])
        (fun t => (t.gpr.getD 3 0, t.ic)) = some (0xFFFFFFFB, 0x6) := by decide +kernel

/-- Example 6, `ADD_W reg3, reg2`. -/
theorem test_example_6_add :
    after (at5 0x100C0080 [(3, 0x00000001), (2, 0x00000002)])
        (fun t => (t.gpr.getD 3 0, t.est, t.ic)) = some (0x00000003, 0x00000080, 0x6) := by decide +kernel

/-- Example 7, `ADD_H reg3, 3`. -/
theorem test_example_7_add :
    after (at5 0x0C0C0003 [(3, 0x00007FFE)])
        (fun t => (t.gpr.getD 3 0, t.est, t.exc)) = some (0x00007FFF, 0x00000448, 0x00000200) := by decide +kernel

/-- Example 8, `SUB_W reg3, reg2`. -/
theorem test_example_8_sub :
    after (at5 0x100C4080 [(3, 0x00000005), (2, 0x00000003)])
        (fun t => (t.gpr.getD 3 0, t.est, t.ic)) = some (0x00000002, 0x00000040, 0x6) := by decide +kernel

/-- Example 9, `SUB_W reg3, -2325`. -/
theorem test_example_9_sub :
    after (at5 0x140C76EB [(3, 0x012BCD86)])
        (fun t => (t.gpr.getD 3 0, t.est, t.ic)) = some (0x012BD69B, 0x00000040, 0x6) := by decide +kernel

/-- Example 10, `MUL_UW reg3, reg2`. -/
theorem test_example_10_mul :
    after (at5 0x120C8080 [(2, 0x000002AB), (3, 0x012BCD86), (4, 0x00000000)])
        (fun t => (t.gpr.getD 3 0, t.gpr.getD 4 0, t.est)) = some (0x1FDD5482, 0x00000003, 0x00000040) := by decide +kernel

/-- Example 11, `MUL_H reg3, reg2`. -/
theorem test_example_11_mul :
    after (at5 0x080C8080 [(2, 0x000002AB), (3, 0x012BCD86)])
        (fun t => (t.gpr.getD 3 0, t.est, t.ic)) = some (0xFF795482, 0x00000480, 0x6) := by decide +kernel

/-- Example 12, `MUL_W reg3, 0x18AC`. -/
theorem test_example_12_mul :
    after (at5 0x140C98AC [(3, 0x012BCD86), (4, 0x00000000)])
        (fun t => (t.gpr.getD 3 0, t.gpr.getD 4 0, t.est)) = some (0xE4B2A608, 0x0000001C, 0x00000040) := by decide +kernel

/-- Example 13, `DIV_W reg3, reg2`. -/
theorem test_example_13_div :
    after (at5 0x100CC080 [(3, 0x012BCD86), (2, 0x000002AB)])
        (fun t => (t.gpr.getD 3 0, t.gpr.getD 4 0, t.est)) = some (0x0000705F, 0x00000011, 0x00000040) := by decide +kernel

/-- Example 14, `DIV_UH reg3, reg2`. -/
theorem test_example_14_div :
    after (at5 0x0A0CC080 [(3, 0x012BCD86), (2, 0x000002AB), (4, 0xEEEE0000)])
        (fun t => (t.gpr.getD 3 0, t.gpr.getD 4 0, t.est)) = some (0x012B004D, 0xEEEE0017, 0x00000040) := by decide +kernel

/-- Example 15, `DIV_B reg3, 0x383A`. -/
theorem test_example_15_div :
    after (at5 0x040CF83A [(3, 0x012BCD56), (4, 0x00000000)])
        (fun t => (t.gpr.getD 3 0, t.gpr.getD 4 0, t.est)) = some (0x012BCD01, 0x0000001C, 0x00000040) := by decide +kernel

/-- Example 16, `SL_W reg3, reg2`. -/
theorem test_example_16_sl :
    after (at5 0x120D0080 [(2, 0x00000002), (3, 0x012BCD86)])
        (fun t => (t.gpr.getD 3 0, t.est, t.ic)) = some (0x04AF3618, 0x00000040, 0x6) := by decide +kernel

/-- Example 17, `SL_AB reg3, 4`. -/
theorem test_example_17_sl :
    after (at5 0x040D0004 [(3, 0x012BCD86)])
        (fun t => (t.gpr.getD 3 0, t.est, t.exc)) = some (0x012BCD60, 0x00000048, 0x00000200) := by decide +kernel

/-- Example 18, `SR_W reg3, reg2`. -/
theorem test_example_18_sr :
    after (at5 0x120D4080 [(3, 0x012BCD86), (2, 0x00000002)])
        (fun t => (t.gpr.getD 3 0, t.est, t.ic)) = some (0x004AF361, 0x00000040, 0x6) := by decide +kernel

/-- Example 19, `SR_AB reg3, 4`. -/
theorem test_example_19_sr :
    after (at5 0x040D4004 [(3, 0x012BCD86)])
        (fun t => (t.gpr.getD 3 0, t.est, t.ic)) = some (0x012BCDF8, 0x00000440, 0x6) := by decide +kernel

/-- Example 20, `RL_W reg3, reg2`. -/
theorem test_example_20_rl :
    after (at5 0x100D8080 [(3, 0x012BCD86), (2, 0x00000002)])
        (fun t => (t.gpr.getD 3 0, t.est, t.ic)) = some (0x04AF3618, 0x00000040, 0x6) := by decide +kernel

/-- Example 21, `RL_H reg3, 0x25`. -/
theorem test_example_21_rl :
    after (at5 0x0C0D8025 [(3, 0x012BCD86)])
        (fun t => (t.gpr.getD 3 0, t.est, t.ic)) = some (0x012BB0D9, 0x00000440, 0x6) := by decide +kernel

/-- Example 22, `RR_W reg3, reg2`. -/
theorem test_example_22_rr :
    after (at5 0x120D8080 [(3, 0x012BCD84), (2, 0x00000002)])
        (fun t => (t.gpr.getD 3 0, t.est, t.ic)) = some (0x004AF361, 0x00000040, 0x6) := by decide +kernel

/-- Example 23, `RR_B reg3, 1`. -/
theorem test_example_23_rr :
    after (at5 0x060D8001 [(3, 0x012BCD86)])
        (fun t => (t.gpr.getD 3 0, t.est, t.ic)) = some (0x012BCD43, 0x00000040, 0x6) := by decide +kernel

/-- Example 24, `AND_W reg3, reg2`. -/
theorem test_example_24_and :
    after (at5 0x100DC080 [(3, 0x012BCD86), (2, 0xF0F0F0F0)])
        (fun t => (t.gpr.getD 3 0, t.est, t.ic)) = some (0x0020C080, 0x00000080, 0x6) := by decide +kernel

/-- Example 25, `AND_W reg3, 0x0F0F`. -/
theorem test_example_25_and :
    after (at5 0x140DCF0F [(3, 0x012BCD86)])
        (fun t => (t.gpr.getD 3 0, t.est, t.ic)) = some (0x00000D06, 0x00000040, 0x6) := by decide +kernel

/-- Example 26, `NAND_W reg3, reg2`. -/
theorem test_example_26_nand :
    after (at5 0x100E0080 [(3, 0x012BCD86), (2, 0xF0F0F0F0)])
        (fun t => (t.gpr.getD 3 0, t.est, t.ic)) = some (0xFFDF3F7F, 0x00000480, 0x6) := by decide +kernel

/-- Example 27, `NAND_W reg3, 0x3F0F`. -/
theorem test_example_27_nand :
    after (at5 0x140E3F0F [(3, 0x012BCD86)])
        (fun t => (t.gpr.getD 3 0, t.est, t.ic)) = some (0xFED432F9, 0x00000480, 0x6) := by decide +kernel

/-- Example 28, `OR_W reg3, reg2`. -/
theorem test_example_28_or :
    after (at5 0x100E4080 [(3, 0x012BCD86), (2, 0xF0F0F0F0)])
        (fun t => (t.gpr.getD 3 0, t.est, t.ic)) = some (0xF1FBFDF6, 0x00000480, 0x6) := by decide +kernel

/-- Example 29, `OR_UW reg3, 0x3F0F`. -/
theorem test_example_29_or :
    after (at5 0x160E7F0F [(3, 0x012BCD86)])
        (fun t => (t.gpr.getD 3 0, t.est, t.ic)) = some (0x012BFF8F, 0x00000040, 0x6) := by decide +kernel

/-- Example 30, `XOR_W reg3, reg2`. -/
theorem test_example_30_xor :
    after (at5 0x100E8080 [(3, 0x012BCD86), (2, 0xF0F0F0F0)])
        (fun t => (t.gpr.getD 3 0, t.est, t.ic)) = some (0xF1DB3D76, 0x00000480, 0x6) := by decide +kernel

/-- Example 31, `XOR_UW reg3, 0x3F0F`. -/
theorem test_example_31_xor :
    after (at5 0x160EBF0F [(3, 0x012BCD86)])
        (fun t => (t.gpr.getD 3 0, t.est, t.ic)) = some (0x012BF289, 0x00000040, 0x6) := by decide +kernel

/-- Example 32, `SB_W reg3, reg2`. -/
theorem test_example_32_sb :
    after (at5 0x100EC080 [(3, 0x00000001), (2, 0x00000004)])
        (fun t => (t.gpr.getD 3 0, t.est, t.ic)) = some (0x00000011, 0x00000080, 0x6) := by decide +kernel

/-- Example 33, `SB_B reg3, 8`. -/
theorem test_example_33_sb :
    after (at5 0x040EC008 [(3, 0x00000005)])
        (fun t => (t.est, t.exc, t.ic)) = some (0x00000081, 0x00000080, 0x6) := by decide +kernel

/-- Example 34, `RB_W reg3, reg2`. -/
theorem test_example_34_rb :
    after (at5 0x120EC080 [(2, 0x00000003), (3, 0xFFFFFFFF)])
        (fun t => (t.gpr.getD 3 0, t.est, t.ic)) = some (0xFFFFFFF7, 0x00000440, 0x6) := by decide +kernel

/-- Example 35, `RB_B reg3, 2`. -/
theorem test_example_35_rb :
    after (at5 0x060EC002 [(3, 0x012BCD86)])
        (fun t => (t.gpr.getD 3 0, t.est, t.ic)) = some (0x012BCD82, 0x00000440, 0x6) := by decide +kernel

/-- Example 36, `TB_W reg3, reg2`. -/
theorem test_example_36_tb :
    after (at5 0x100F0080 [(2, 0x00000003), (3, 0x00000008)])
        (fun t => (t.gpr.getD 3 0, t.est, t.ic)) = some (0x00000001, 0x00000040, 0x6) := by decide +kernel

/-- Example 37, `TB_B reg3, 2`. -/
theorem test_example_37_tb :
    after (at5 0x040F0002 [(3, 0x0000000A)])
        (fun t => (t.gpr.getD 3 0, t.est, t.ic)) = some (0x00000000, 0x00000840, 0x6) := by decide +kernel

/-- Example 38, `RVB_W reg3, reg2`. -/
theorem test_example_38_rvb :
    after (at5 0x120F0080 [(3, 0x012BCD86), (2, 0x00000007)])
        (fun t => (t.gpr.getD 3 0, t.est, t.ic)) = some (0x012BCD61, 0x00000040, 0x6) := by decide +kernel

/-- Example 39, `RVB_W reg3, 15`. -/
theorem test_example_39_rvb :
    after (at5 0x160F000F [(3, 0xAAAAAAAA)])
        (fun t => (t.gpr.getD 3 0, t.est, t.ic)) = some (0xAAAA5555, 0x00000440, 0x6) := by decide +kernel

/-- Example 40, `FADD reg3, reg2`. -/
theorem test_example_40_fadd :
    after (at5 0x010C0080 [(3, 0x00000001), (2, 0xBF800001)])
        (fun t => (t.gpr.getD 3 0, t.est, t.exc)) = some (0xBF800001, 0x00001540, 0x00008800) := by decide +kernel

/-- Example 41, `FSUB reg3, reg2`. -/
theorem test_example_41_fsub :
    after (at5 0x010C4080 [(3, 0x3F800000), (2, 0x40000000)])
        (fun t => (t.gpr.getD 3 0, t.est, t.ic)) = some (0xBF800000, 0x00000480, 0x6) := by decide +kernel

/-- Example 42, `FMUL reg3, reg2`. -/
theorem test_example_42_fmul :
    after (at5 0x010C8080 [(3, 0x3F800000), (2, 0x40000000)])
        (fun t => (t.gpr.getD 3 0, t.est, t.ic)) = some (0x40000000, 0x00000080, 0x6) := by decide +kernel

/-- Example 43, `FDIV reg3, reg2`. -/
theorem test_example_43_fdiv :
    after (at5 0x010CC080 [(3, 0x3F800000), (2, 0x40400000)])
        (fun t => (t.gpr.getD 3 0, t.est, t.exc)) = some (0x3EAAAAAB, 0x00000180, 0x00008000) := by decide +kernel

/-- Example 44, `FREM reg3, reg2`. -/
theorem test_example_44_frem :
    after (at5 0x010D0080 [(3, 0x40400000), (2, 0x40800000)])
        (fun t => (t.gpr.getD 3 0, t.est, t.ic)) = some (0xBF800000, 0x00000480, 0x6) := by decide +kernel

/-- Example 45, `FCMP reg3, reg2`. -/
theorem test_example_45_fcmp :
    after (at5 0x010D4080 [(3, 0x7F800001), (2, 0x3F800000)])
        (fun t => (t.gpr.getD 3 0, t.est, t.exc)) = some (0x7F80C201, 0x0000C201, 0x00000400) := by decide +kernel

/-- Example 46, `FSQR reg3`. -/
theorem test_example_46_fsqr :
    after (at5 0x010D8000 [(3, 0x40800000)])
        (fun t => (t.gpr.getD 3 0, t.est, t.ic)) = some (0x40000000, 0x00000000, 0x6) := by decide +kernel

/-- Example 47, `FABS reg3`. -/
theorem test_example_47_fabs :
    after (at5 0x010DC000 [(3, 0xC0200000)])
        (fun t => (t.gpr.getD 3 0, t.est, t.ic)) = some (0x40200000, 0x00000000, 0x6) := by decide +kernel

/-- Example 48, `FNEG reg3`. -/
theorem test_example_48_fneg :
    after (at5 0x010E0000 [(3, 0x40000000)])
        (fun t => (t.gpr.getD 3 0, t.est, t.ic)) = some (0xC0000000, 0x00000400, 0x6) := by decide +kernel

/-- Example 49, `FRND reg3`. -/
theorem test_example_49_frnd :
    after { (at5 0x010E4000 [(3, 0x4019999A)]) with ucr := 0x00000000 }
        (fun t => (t.gpr.getD 3 0, t.est, t.exc)) = some (0x40000000, 0x00000100, 0x00008000) := by decide +kernel

/-- Example 50, `FF2I_W reg3`. -/
theorem test_example_50_ff2i :
    after (at5 0x110E8000 [(3, 0x40400000)])
        (fun t => (t.gpr.getD 3 0, t.est, t.ic)) = some (0x00000003, 0x00000000, 0x6) := by decide +kernel

/-- Example 51, `FI2F_W reg3`. -/
theorem test_example_51_fi2f :
    after (at5 0x110EC000 [(3, 0x0000000F)])
        (fun t => (t.gpr.getD 3 0, t.est, t.ic)) = some (0x41700000, 0x00000000, 0x6) := by decide +kernel

/-- Example 52, `FEXT_W reg3`. -/
theorem test_example_52_fext :
    after (at5 0x110F0000 [(3, 0x3F800000)])
        (fun t => (t.est, t.ic)) = some (0x00000000, 0x6) := by decide +kernel

/-- Example 53, `FSQZ_W reg3`. -/
theorem test_example_53_fsqz :
    after (at5 0x110F4000 [(3, 0x3F800000)])
        (fun t => (t.est, t.ic)) = some (0x00000000, 0x6) := by decide +kernel

/-- Example 54, `MAD_W reg3, reg2, reg1`. -/
theorem test_example_54_mad :
    after (at5 0x100F8081 [(3, 0x012BCD86), (2, 0x000002AB), (1, 0x0000101C), (4, 0x00000000)])
        (fun t => (t.gpr.getD 3 0, t.gpr.getD 4 0, t.est)) = some (0x1FDD649E, 0x00000003, 0x00000040) := by decide +kernel

/-- Example 55, `MAD_W reg3, reg2, 100`. -/
theorem test_example_55_mad :
    after (at5 0x140F90A4 [(3, 0x012BCD86), (2, 0x000002AB), (4, 0x00000000)])
        (fun t => (t.gpr.getD 3 0, t.gpr.getD 4 0, t.est)) = some (0x1FDD54E6, 0x00000003, 0x00000040) := by decide +kernel

/-- Example 56, `MSU_W reg3, reg2, reg1`. -/
theorem test_example_56_msu :
    after (at5 0x100FC081 [(3, 0x012BCD86), (2, 0x000002AB), (1, 0x0000101C), (4, 0x00000000)])
        (fun t => (t.gpr.getD 3 0, t.gpr.getD 4 0, t.est)) = some (0x1FDD4466, 0x00000003, 0x00000040) := by decide +kernel

/-- Example 57, `MSU_W reg3, reg2, 100`. -/
theorem test_example_57_msu :
    after (at5 0x140FD0A4 [(3, 0x012BCD86), (2, 0x000002AB), (4, 0x00000000)])
        (fun t => (t.gpr.getD 3 0, t.gpr.getD 4 0, t.est)) = some (0x1FDD541E, 0x00000003, 0x00000040) := by decide +kernel

/-- Example 58, `FMAD reg3, reg2, reg1`. -/
theorem test_example_58_fmad :
    after (at5 0x010F8081 [(3, 0x3F800001), (2, 0x40400000), (1, 0x3F800000)])
        (fun t => (t.gpr.getD 3 0, t.est, t.exc)) = some (0x40800001, 0x00000180, 0x00008000) := by decide +kernel

/-- Example 59, `FMSU reg3, reg2, reg1`. -/
theorem test_example_59_fmsu :
    after (at5 0x010FC081 [(3, 0x3F800000), (2, 0x40000000), (1, 0x3F800000)])
        (fun t => (t.est, t.ic)) = some (0x00000080, 0x6) := by decide +kernel

/-- Example 60, `JMP reg3`. -/
theorem test_example_60_jmp :
    after (at5 0x400000C0 [(3, 0x00000007)])
        (fun t => t.ic) = some 0xC := by decide +kernel

/-- Example 60 (P=1), `JMP_P reg3`. -/
theorem test_example_60_p_1_jmp :
    after (at5 0x410000C0 [(3, 0x00000007)])
        (fun t => (t.crp, t.ic)) = some (0x00000006, 0xC) := by decide +kernel

/-- Example 61, `JMP_A reg3`. -/
theorem test_example_61_jmp :
    after (at5 0x420000C0 [(3, 0x00000007)])
        (fun t => t.ic) = some 0x7 := by decide +kernel

/-- Example 62, `JMP -3`. -/
theorem test_example_62_jmp :
    after (at5 0x44FC3FFD [])
        (fun t => t.ic) = some 0x2 := by decide +kernel

/-- Example 63, `JMP_A -3`. -/
theorem test_example_63_jmp :
    after (at5 0x46FC3FFD [])
        (fun t => t.ic) = some 0x3FFFFFFD := by decide +kernel

/-- Example 64, `BZ_B reg2, reg3`. -/
theorem test_example_64_bz :
    after (at5 0x400840C0 [(2, 0x00000100), (3, 0x00000007)])
        (fun t => t.ic) = some 0xC := by decide +kernel

/-- Example 65, `BZ_AW reg2, 15`. -/
theorem test_example_65_bz :
    after (at5 0x5608400F [(2, 0x00000001)])
        (fun t => t.ic) = some 0x6 := by decide +kernel

/-- Example 66, `BNZ_H reg2, reg3`. -/
theorem test_example_66_bnz :
    after (at5 0x480880C0 [(2, 0x00010000), (3, 0x00000007)])
        (fun t => t.ic) = some 0x6 := by decide +kernel

/-- Example 67, `BNZ_W reg2, 25`. -/
theorem test_example_67_bnz :
    after (at5 0x54088019 [(2, 0x00000001)])
        (fun t => t.ic) = some 0x1E := by decide +kernel

/-- Example 68, `BM_B reg2, reg3`. -/
theorem test_example_68_bm :
    after (at5 0x4008C0C0 [(2, 0x00000080), (3, 0x00000007)])
        (fun t => t.ic) = some 0xC := by decide +kernel

/-- Example 69, `BM_AW reg2, 25`. -/
theorem test_example_69_bm :
    after (at5 0x5608C019 [(2, 0x80000000)])
        (fun t => t.ic) = some 0x19 := by decide +kernel

/-- Example 70, `BMZ_H reg2, reg3`. -/
theorem test_example_70_bmz :
    after (at5 0x480900C0 [(2, 0x00000001), (3, 0x00000007)])
        (fun t => t.ic) = some 0x6 := by decide +kernel

/-- Example 71, `BMZ_W reg2, 25`. -/
theorem test_example_71_bmz :
    after (at5 0x54090019 [(2, 0x00000000)])
        (fun t => t.ic) = some 0x1E := by decide +kernel

/-- Example 72, `BNM_B reg2, reg3`. -/
theorem test_example_72_bnm :
    after (at5 0x400940C0 [(2, 0x0000007F), (3, 0x00000007)])
        (fun t => t.ic) = some 0xC := by decide +kernel

/-- Example 73, `BNM_AW reg2, 25`. -/
theorem test_example_73_bnm :
    after (at5 0x56094019 [(2, 0x00000001)])
        (fun t => t.ic) = some 0x19 := by decide +kernel

/-- Example 74, `BNMO_H reg2, reg3`. -/
theorem test_example_74_bnmo :
    after (at5 0x480980C0 [(2, 0x00008000), (3, 0x00000007)])
        (fun t => t.ic) = some 0x6 := by decide +kernel

/-- Example 75, `BNMO_W reg2, 25`. -/
theorem test_example_75_bnmo :
    after (at5 0x54098019 [(2, 0xFFFFFFFF)])
        (fun t => t.ic) = some 0x1E := by decide +kernel

/-- Example 76, `BL_B reg2, reg3`. -/
theorem test_example_76_bl :
    after (at5 0x4009C0C0 [(2, 0x00000001), (3, 0x00000007)])
        (fun t => t.ic) = some 0xC := by decide +kernel

/-- Example 77, `BL_AW reg2, 25`. -/
theorem test_example_77_bl :
    after (at5 0x5609C019 [(2, 0x00000001)])
        (fun t => t.ic) = some 0x19 := by decide +kernel

/-- Example 78, `BLZ_H reg2, reg3`. -/
theorem test_example_78_blz :
    after (at5 0x480A00C0 [(2, 0x00000002), (3, 0x00000007)])
        (fun t => t.ic) = some 0x6 := by decide +kernel

/-- Example 79, `BLZ_W reg2, 25`. -/
theorem test_example_79_blz :
    after (at5 0x540A0019 [(2, 0x00000000)])
        (fun t => t.ic) = some 0x1E := by decide +kernel

/-- Example 80, `BNL_B reg2, reg3`. -/
theorem test_example_80_bnl :
    after (at5 0x400A40C0 [(2, 0x00000002), (3, 0x00000007)])
        (fun t => t.ic) = some 0xC := by decide +kernel

/-- Example 81, `BNL_AW reg2, 25`. -/
theorem test_example_81_bnl :
    after (at5 0x560A4019 [(2, 0x00000002)])
        (fun t => t.ic) = some 0x19 := by decide +kernel

/-- Example 82, `BNLO_H reg2, reg3`. -/
theorem test_example_82_bnlo :
    after (at5 0x480A80C0 [(2, 0x00000001), (3, 0x00000007)])
        (fun t => t.ic) = some 0x6 := by decide +kernel

/-- Example 83, `BNLO_W reg2, 25`. -/
theorem test_example_83_bnlo :
    after (at5 0x540A8019 [(2, 0xFFFFFFFF)])
        (fun t => t.ic) = some 0x1E := by decide +kernel

/-- Example 84, `BO_B reg2, reg3`. -/
theorem test_example_84_bo :
    after (at5 0x400AC0C0 [(2, 0x000000FF), (3, 0x00000007)])
        (fun t => t.ic) = some 0xC := by decide +kernel

/-- Example 85, `BO_AW reg2, 15`. -/
theorem test_example_85_bo :
    after (at5 0x560AC00F [(2, 0x7FFFFFFF)])
        (fun t => t.ic) = some 0x6 := by decide +kernel

/-- Example 86, `BNO_H reg2, reg3`. -/
theorem test_example_86_bno :
    after (at5 0x480B00C0 [(2, 0x0000FFFF), (3, 0x00000007)])
        (fun t => t.ic) = some 0x6 := by decide +kernel

/-- Example 87, `BNO_W reg2, 25`. -/
theorem test_example_87_bno :
    after (at5 0x540B0019 [(2, 0x00000000)])
        (fun t => t.ic) = some 0x1E := by decide +kernel

/-- Example 88, `RET`. -/
theorem test_example_88_ret :
    after { (({ State.reset with ic := 12, gpr := (at5 0x40034000 []).gpr } : State).withFetchWord 32 0x40034000) with crp := 0x00000006 }
        (fun t => t.ic) = some 0x6 := by decide +kernel

/-- Example 88 (P=1), `RET_P`. -/
theorem test_example_88_p_1_ret :
    after { (({ State.reset with ic := 12, gpr := (at5 0x41034000 []).gpr } : State).withFetchWord 32 0x41034000) with crp := 0x00000006 }
        (fun t => t.ic) = some 0x5 := by decide +kernel

/-- Example 89, `RETI`. -/
theorem test_example_89_reti :
    after { (({ State.reset with ic := 64, gpr := (at5 0x48034000 []).gpr } : State).withFetchWord 32 0x48034000) with irp := 0x00000009, scr := 0x00000001, savIrq := some true }
        (fun t => (t.scr, t.savIrq, t.ic)) = some (0x00000009, none, 0x9) := by decide +kernel

/-- Example 90, `RETE`. -/
theorem test_example_90_rete :
    after { (({ State.reset with ic := 64, gpr := (at5 0x50034000 []).gpr } : State).withFetchWord 32 0x50034000) with erp := 0x00000009, scr := 0x00000001, savExc := some ⟨false, true, true⟩ }
        (fun t => (t.scr, t.savExc, t.ic)) = some (0x0000000C, none, 0x9) := by decide +kernel

/-- Example 90 (P=1), `RETE_P`. -/
theorem test_example_90_p_1_rete :
    after { (({ State.reset with ic := 64, gpr := (at5 0x51034000 []).gpr } : State).withFetchWord 32 0x51034000) with erp := 0x00000009, scr := 0x00000001, savExc := some ⟨false, true, true⟩ }
        (fun t => (t.scr, t.savExc, t.ic)) = some (0x0000000C, none, 0x8) := by decide +kernel

/-- Example 90 (A=1), `RETE_A reg4`. -/
theorem test_example_90_a_1_rete :
    after { (({ State.reset with ic := 64, gpr := (at5 0x52034100 [(4, 0x0000000D)]).gpr } : State).withFetchWord 32 0x52034100) with erp := 0x00000009, scr := 0x00000001, savExc := some ⟨false, true, true⟩ }
        (fun t => (t.scr, t.savExc, t.ic)) = some (0x0000000D, none, 0x9) := by decide +kernel

/-- Example 91, `RETN`. -/
theorem test_example_91_retn :
    after { (({ State.reset with ic := 64, gpr := (at5 0x58034000 []).gpr } : State).withFetchWord 32 0x58034000) with nrp := 0x00000009, scr := 0x00000001, savNmi := some ⟨false, true, true⟩ }
        (fun t => (t.scr, t.savNmi, t.ic)) = some (0x0000000C, none, 0x9) := by decide +kernel

/-- Example 92, `WAIT reg3`. -/
theorem test_example_92_wait :
    after (at5 0x400380C0 [(3, 0x00000000)])
        (fun t => (t.run, t.ic)) = some (Run.waitingForever, 0x5) := by decide +kernel

/-- Example 93, `WAIT 500`. -/
theorem test_example_93_wait :
    after (at5 0x440381F4 [])
        (fun t => (t.run, t.waitTimer, t.ic)) = some (Run.waitingTimed, 500, 0x5) := by decide +kernel

/-- Vector M5, `MOV_D reg63, reg6[0]`. -/
theorem test_vector_m5_mov :
    after (poke (at5 0xDCFC0180 [(6, 0x00000040)]) 0x40 8 0x1122334455667788)
        (fun t => (t.gpr.getD 0 0, t.gpr.getD 63 0, t.ic)) = some (0x11223344, 0x55667788, 0x6) := by decide +kernel

/-- Vector M9, `MOV_B reg2[-1], reg3`. -/
theorem test_vector_m9_mov :
    after (at5 0x840FF0BF [(2, 0x00000000), (3, 0x000001FF)])
        (fun t => (peek t 0xFFFFFFFF 1, t.ic)) = some (0xFF, 0x6) := by decide +kernel

/-- Vector M20, `MOV_W reg1, [reg1++]`. -/
theorem test_vector_m20_mov :
    after (poke (at5 0xD0044001 [(1, 0x00000020)]) 0x20 4 0xDEADBEEF)
        (fun t => (t.gpr.getD 1 0, t.ic)) = some (0xDEADBEEF, 0x6) := by decide +kernel

/-- Vector M23, `MOV_W [++reg1], reg1`. -/
theorem test_vector_m23_mov :
    after (at5 0x90054001 [(1, 0x00000020)])
        (fun t => (t.gpr.getD 1 0, peek t 0x24 4, t.ic)) = some (0x00000024, 0x00000020, 0x6) := by decide +kernel

/-- Vector A1, `MOV_AW reg3, [reg2]`. -/
theorem test_vector_a1_mov :
    after (poke (at5 0xD20C0002 [(2, 0x00000080)]) 0x80 4 0x00000007)
        (fun t => (t.gpr.getD 3 0, t.resv.isSome, t.ic)) = some (0x00000007, true, 0x6) := by decide +kernel

/-- Vector A2, `MOV_AW [reg2], reg3`. -/
theorem test_vector_a2_mov :
    after { (poke (at5 0x920C0002 [(2, 0x00000080), (3, 0x00000008)]) 0x80 4 0x00000007) with resv := some ⟨0x80, 4, [0x80, 0x81, 0x82, 0x83]⟩ }
        (fun t => (t.gpr.getD 3 0, peek t 0x80 4, t.resv.isSome)) = some (0x00000001, 0x00000008, false) := by decide +kernel

/-- Vector A3, `MOV_AW [reg2], reg3`. -/
theorem test_vector_a3_mov :
    after (poke (at5 0x920C0002 [(2, 0x00000080), (3, 0x00000008)]) 0x80 4 0x00000007)
        (fun t => (t.gpr.getD 3 0, t.ic)) = some (0x00000000, 0x6) := by decide +kernel

/-- Vector A6, `MOV_AW reg2[4], reg3`. -/
theorem test_vector_a6_mov :
    after { (at5 0x960C0084 [(2, 0x0000007C), (3, 0x00000055)]) with resv := some ⟨0x80, 4, [0x80, 0x81, 0x82, 0x83]⟩ }
        (fun t => (t.gpr.getD 3 0, peek t 0x80 4, t.resv.isSome)) = some (0x00000001, 0x00000055, false) := by decide +kernel

/-- Vector T4, `MOV_D reg1, spc0`. -/
theorem test_vector_t4_mov :
    after { (at5 0xD9044000 []) with scr := 0x00000001 }
        (fun t => (t.gpr.getD 1 0, t.gpr.getD 2 0, t.ic)) = some (0x00023E93, 0x0000603F, 0x6) := by decide +kernel

/-- Vector T7, `MOV_W spc15, reg3`. -/
theorem test_vector_t7_mov :
    after { (at5 0xD13C8003 [(3, 0x00000005)]) with scr := 0x00000000 }
        (fun t => (t.exc, t.ic)) = some (0x00000008, 0x6) := by decide +kernel

/-- Vector T12, `MOV_W spc15, reg3`. -/
theorem test_vector_t12_mov :
    after { (at5 0xD13C8003 [(3, 0x00000011)]) with scr := 0x00000001 }
        (fun t => (t.exc, t.ic)) = some (0x00000010, 0x6) := by decide +kernel

/-- Vector T13, `MOV_W spc6, reg3`. -/
theorem test_vector_t13_mov :
    after { (at5 0xD1188003 [(3, 0xFFFFFFFF)]) with scr := 0x00000001 }
        (fun t => (t.exm, t.ic)) = some (0xFFFFFFFE, 0x6) := by decide +kernel

/-! ## Witnesses: a concrete state and operands for the hypotheses of every statement, clause by clause -/

/-- The step answers a next state. -/
def steps (s : State) : Bool :=
  match step s with
  | .next _ => true
  | _ => false

/-- The instruction answers a next state that `p` holds of. -/
def gives (i : Instr) (s : State) (p : State → Bool) : Bool :=
  match exec i s with
  | .next t => p t
  | _ => false

/-- The state with exceptions enabled and none masked, in system mode: every exception is potent. -/
def armed (s : State) : State := { s with scr := 5 }

/-- The state on an implementation with other parameters. -/
def onConfig (s : State) (f : Config → Config) : State := { s with cfg := f s.cfg }

/-- An address map that answers every access with an error. -/
def nothingMapped : List MapEntry :=
  [{ lo := 0, hi := 0xFFFFFFFF, pid := none, system := none, fetch := true, read := true, write := true, target := none }]

/-- An implementation with two DSP registers of 32 bits, two FP registers of 80 bits and one register of its own. -/
def withFiles (c : Config) : Config :=
  { c with dsp := some ⟨2, .w⟩, fpr := some ⟨2, 80⟩, extraFiles := [⟨1, .h, some 5, some 6⟩] }

theorem witness_DecodeOfEncode : WellFormed (.fsqz .h 63) ∧ WellFormed (.fext .s1 0) ∧ WellFormed (.waitO 0xFFFFF) :=
  ⟨rfl, rfl, trivial⟩

theorem witness_InvalidWords : (∃ e, decode 0x00034000 = .error e) ∧ (∃ i, decode 0 = .ok i) := ⟨⟨_, rfl⟩, ⟨_, rfl⟩⟩

theorem witness_UnusedBitsIgnored_memory : (0xC00C0001 : Word).getLsbD 31 = true ∧ (0xC00C0001 : Word).getLsbD 24 = false ∧
    (0xC00C0001 : Word).getLsbD 26 = false ∧ (0xC00C0001 : Word).getLsbD 17 = false ∧
    (0xC00C3FC1 : Word) &&& 0xFFFFC03F#32 = 0xC00C0001 &&& 0xFFFFC03F#32 := by decide +kernel

theorem witness_UnusedBitsIgnored_interRegister : (0xC103C000 : Word).getLsbD 31 = true ∧
    (0xC103C000 : Word).getLsbD 24 = true ∧ (0xC103C000 : Word).getLsbD 26 = false ∧
    (0xC103FFC0 : Word) &&& 0xFFFFC03F#32 = 0xC103C000 &&& 0xFFFFC03F#32 := by decide +kernel

theorem witness_UnusedBitsIgnored_twoOperand : (0x000F4080 : Word).extractLsb' 30 2 = 0 ∧
    (0x000F4080 : Word).getLsbD 24 = false ∧ (0x000F4080 : Word).getLsbD 26 = false ∧
    ((0x000F4080 : Word).extractLsb' 14 4).toNat = 13 ∧
    (0x000F70BF : Word) &&& 0xFFFFCFC0#32 = 0x000F4080 &&& 0xFFFFCFC0#32 := by decide +kernel

theorem witness_UnusedBitsIgnored_logic : ((0x100DC080 : Word).extractLsb' 14 4).toNat = 7 ∧
    ((0x100E8080 : Word).extractLsb' 14 4).toNat = 10 ∧
    (0x120DF0BF : Word) &&& 0xFDFFCFC0#32 = 0x100DC080 &&& 0xFDFFCFC0#32 ∧
    (0x120EB0BF : Word) &&& 0xFDFFCFC0#32 = 0x100E8080 &&& 0xFDFFCFC0#32 := by decide +kernel

theorem witness_UnusedBitsIgnored_returns : (0x58034000 : Word).extractLsb' 30 2 = 1 ∧
    (0x58034000 : Word).extractLsb' 14 4 = 13 ∧ (0x58034000 : Word).getLsbD 26 = false ∧
    (0x58034000 : Word).getLsbD 25 = false ∧
    (0x58FF7FFF : Word) &&& 0xFF03C000#32 = 0x58034000 &&& 0xFF03C000#32 := by decide +kernel

theorem witness_UnusedBitsIgnored_jump : (0x400000C0 : Word).extractLsb' 30 2 = 1 ∧
    (0x400000C0 : Word).extractLsb' 14 4 = 0 ∧ (0x400000C0 : Word).getLsbD 26 = false ∧
    (0x40FC30FF : Word) &&& 0xFF03CFC0#32 = 0x400000C0 &&& 0xFF03CFC0#32 := by decide +kernel

/-- Indexed addressing, MAD in register form, FADD, FSQR, FMAD. -/
theorem witness_UnusedBitsIgnored_fields : ((0xD80F4081 : Word).extractLsb' 14 4).toNat = 13 ∧
    (0xD80F7081 : Word) &&& 0xFFFFCFFF#32 = 0xD80F4081 &&& 0xFFFFCFFF#32 ∧
    (0x100FB081 : Word) &&& 0xFFFFCFFF#32 = 0x100F8081 &&& 0xFFFFCFFF#32 ∧
    (0x010C30BF : Word) &&& 0xFFFFCFC0#32 = 0x010C0080 &&& 0xFFFFCFC0#32 ∧
    (0x010DBFFF : Word) &&& 0xFFFFC000#32 = 0x010D8000 &&& 0xFFFFC000#32 ∧
    (0x010FB081 : Word) &&& 0xFFFFCFFF#32 = 0x010F8081 &&& 0xFFFFCFFF#32 := by decide +kernel

/-- BZ, RETN and WAIT in register form. -/
theorem witness_UnusedBitsIgnored_control : (0x500870FF : Word) &&& 0xFFFFCFC0#32 = 0x500840C0 &&& 0xFFFFCFC0#32 ∧
    (0x5AFF70FF : Word) &&& 0xFF03CFC0#32 = 0x5A0340C0 &&& 0xFF03CFC0#32 ∧ (0x5A0340C0 : Word).getLsbD 25 = true ∧
    (0x40FFB0FF : Word) &&& 0xFF03CFC0#32 = 0x400380C0 &&& 0xFF03CFC0#32 := by decide +kernel

theorem witness_ImmediateExtension : (0 < 14 ∧ 14 ≤ 32) ∧ (0 < 14 ∧ 14 ≤ 14) ∧ (0 < 18 ∧ 8 ≤ 18) := by decide +kernel

theorem witness_GprFile : 0 < MMode.b.width ∧ 1023 < MMode.s4.width ∧ (63 : RegNum).toNat < State.reset.cfg.ngpr ∧
    State.reset.bankBase + State.reset.cfg.ngpr ≤ State.reset.gpr.length ∧
    1 < max 1 (MMode.d.width / State.reset.cfg.gprw.width) := by decide +kernel

/-- The last slot, EXM, a write of 1024 bits, which wraps from slot 11 over the whole file. -/
theorem witness_SpecialRegisterFile : (∃ x, State.reset.spcSlots[26]? = some x) ∧ (26 : RegNum).toNat < 27 ∧
    (6 : RegNum).toNat < 27 ∧ MMode.s4.width / 32 = 32 ∧ 2 ≤ ((11 : RegNum).toNat + 31) % 27 ∧
    2 ≤ ((11 : RegNum).toNat + 15) % 27 := ⟨⟨_, rfl⟩, by decide +kernel⟩

/-- The machine with register files of its own and a word at `4 * IC`. -/
def withFilesAt (w : Nat) : State := { onConfig (at5 w []) withFiles with dsp := [0, 7], fpr := [0, 2 ^ 79], extra := [[0xFFFF]] }

theorem files_withFilesAt : (withFilesAt 0xC9154003).FilesOk := by
  have all {l : List Reg} {w : Nat} (h : (l.all fun r => decide (r.toNat < 2 ^ w)) = true) : ∀ r ∈ l, r.toNat < 2 ^ w :=
    fun r hr => of_decide_eq_true (List.all_eq_true.1 h r hr)
  refine ⟨⟨by decide +kernel, all (by decide +kernel)⟩, ⟨by decide +kernel, all (by decide +kernel)⟩,
    ⟨by decide +kernel, all (by decide +kernel)⟩, by decide +kernel, fun k f h => ?_⟩
  match k, h with
  | 0, h =>
    obtain rfl := Option.some.inj h
    exact ⟨by decide +kernel, all (by decide +kernel)⟩

theorem witness_OptionalRegisterFiles : (withFilesAt 0xC9154003).cfg.valid = true ∧ (withFilesAt 0xC9154003).FilesOk ∧
    (withFilesAt 0xC9154003).bankBase + (withFilesAt 0xC9154003).cfg.ngpr ≤ (withFilesAt 0xC9154003).gpr.length ∧
    (withFilesAt 0xC9154003).cfg.dsp = some ⟨2, .w⟩ ∧ (withFilesAt 0xC9154003).cfg.fpr = some ⟨2, 80⟩ ∧
    (withFilesAt 0xC9154003).cfg.extraFiles[0]? = some ⟨1, .h, some 5, some 6⟩ ∧
    (1 : RegNum).toNat < 2 ∧ (0 : RegNum).toNat < 1 ∧ (at5 0 []).cfg.fpr = none ∧ (63 : RegNum).toNat < (at5 0 []).cfg.ngpr :=
  ⟨by decide +kernel, files_withFilesAt, by decide +kernel, rfl, rfl, rfl, by decide +kernel, by decide +kernel, rfl,
    by decide +kernel⟩

/-- REG 5 <- register 0 of the file with AUXCODE 0101, and back with AUXCODE 0110. -/
theorem witness_OptionalRegisterFiles_transfers : (withFilesAt 0xC9154000).ReadyToFetch ∧
    (withFilesAt 0xC9154000).debugMode = false ∧ (withFilesAt 0xC9154000).quiet.fetch = some 0xC9154000 ∧
    0xC9154000#32 &&& 0xC7000000#32 = 0xC1000000#32 ∧ (0xC9154000 : Word).extractLsb' 14 4 = 5 ∧
    (withFilesAt 0xC9018005).ReadyToFetch ∧ (withFilesAt 0xC9018005).quiet.fetch = some 0xC9018005 ∧
    0xC9018005#32 &&& 0xC7000000#32 = 0xC1000000#32 ∧ (0xC9018005 : Word).extractLsb' 14 4 = 6 :=
  ⟨⟨by decide +kernel, rfl, rfl, rfl, by decide +kernel, rfl⟩, by decide +kernel, by decide +kernel, by decide +kernel,
    by decide +kernel, ⟨by decide +kernel, rfl, rfl, rfl, by decide +kernel, rfl⟩, by decide +kernel, by decide +kernel,
    by decide +kernel⟩

/-- 10_state.md R65: the transfers of a file of the implementation move its registers. -/
theorem test_extra_file_transfers : after (withFilesAt 0xC9154000) (fun t => (t.gpr.getD 5 0, t.ic)) = some (0xFFFF, 6) ∧
    after { withFilesAt 0xC9018005 with gpr := [0, 0, 0, 0, 0, 0x12345678] } (fun t => t.extra) = some [[0x5678]] := by
  decide +kernel

/-- 92_eei_decisions.md D34: REF32 executes ADD in mode D. -/
theorem test_add_d_executes : after (at5 0x18180080 [(6, 0xFFFFFFFF), (2, 1)]) (fun t => (t.gpr.getD 6 0, t.gpr.getD 7 0, t.exc)) =
    some (0, 1, 0) := by decide +kernel

theorem witness_ExceptionMasks : ({ State.reset with exm := 2, scr := 5 } : State).exm.getLsbD 1 = true ∧
    ({ State.reset with exm := 2, scr := 5 } : State).exm.getLsbD 63 = false ∧
    (State.reset.writeSpc 6 (BitVec.allOnes 64)).exm = 0xFFFFFFFFFFFFFFFE := by decide +kernel

theorem witness_MemoryByteOrder : State.reset.cfg.translation = [] ∧ State.reset.dataFault = false ∧
    Memory.wf (poke State.reset 0xFFFFFFFC 4 0x01020304).mem = true ∧ MMode.s4.width / 8 ≤ 2 ^ State.reset.cfg.paw ∧
    State.reset.cfg.endian = .little ∧ (onConfig State.reset fun c => { c with endian := .big }).cfg.endian = .big := by
  decide +kernel

theorem witness_MemoryByteOrder_fetch : State.reset.cfg.translation = [] ∧ State.reset.fetchFault = false ∧
    ({ State.reset with fetchFault := true } : State).fetchFault = true := by decide +kernel

/-- The word of Example 6 at byte address 4 * 5, read by the fetch in both byte orders (R30, R108). -/
theorem test_fetch_byte_order :
    let s := { State.reset with ic := 5, mem := [(20, 0x80), (22, 0x0C), (23, 0x10)] }
    s.fetch = some 0x100C0080 ∧ (onConfig s fun c => { c with endian := .big }).fetch = some 0x80000C10 := by decide +kernel

theorem witness_EffectiveAddress : State.reset.cfg.paw ≤ State.reset.cfg.pawm.width := by decide +kernel

theorem ready_at5 : (at5 0x100C0080 [(3, 1), (2, 2)]).ReadyToFetch :=
  ⟨by decide +kernel, rfl, rfl, rfl, by decide +kernel, rfl⟩

theorem witness_StepRunsDecodedInstruction : (at5 0x100C0080 [(3, 1), (2, 2)]).ReadyToFetch ∧
    (at5 0x100C0080 [(3, 1), (2, 2)]).quiet.fetch = some 0x100C0080 ∧ decode 0x100C0080 = .ok (.addR .w false 3 2) ∧
    gives (.addR .w false 3 2) ((at5 0x100C0080 [(3, 1), (2, 2)]).quiet.executing 0x100C0080) (fun _ => true) = true :=
  ⟨ready_at5, by decide +kernel, rfl, by decide +kernel⟩

theorem witness_StepRunsDecodedInstruction_debug : ({ at5 0x100C0080 [] with scr := 3 } : State).ReadyToFetch ∧
    gives (.addR .w false 3 2) (({ at5 0x100C0080 [] with scr := 3 } : State).quiet.executing 0x100C0080)
      (fun t => !t.abandoned && t.run == .running) = true :=
  ⟨⟨by decide +kernel, rfl, rfl, rfl, by decide +kernel, rfl⟩, by decide +kernel⟩

theorem witness_StepKeepsInv : (at5 0x100C0080 [(3, 1), (2, 2)]).Inv ∧ steps (at5 0x100C0080 [(3, 1), (2, 2)]) = true := by
  have small : ((at5 0x100C0080 [(3, 1), (2, 2)]).gpr.all fun r => decide (r.toNat < 2 ^ 32)) = true := by decide +kernel
  refine ⟨⟨by decide +kernel, ⟨⟨by decide +kernel, fun r hr => of_decide_eq_true (List.all_eq_true.1 small r hr)⟩, rfl, rfl, rfl,
    fun _ _ h => nomatch h⟩, by decide +kernel, by decide +kernel, by decide +kernel,
    by decide +kernel, rfl, by decide +kernel, by decide +kernel, ?_⟩, by decide +kernel⟩
  intro r h
  cases h

theorem witness_ResetMeetsInv : (withFiles Config.ref32).valid = true ∧
    ({ Config.ref32 with nbanks := 16, ngpr := 3 } : Config).valid = true ∧
    ({ Config.ref32 with hasMul := false, absent := [.mul] } : Config).valid = true := by decide +kernel

theorem witness_BoundaryOrder : State.reset.cfg.valid = true ∧ State.reset.inputs = [] ∧ State.reset.run = .running :=
  ⟨by decide +kernel, rfl, rfl⟩

theorem witness_BoundaryOrder_nmi : ({ State.reset with nmiPending := true, scr := 0xF, exc := 1 } : State).nmiPending = true :=
  rfl

theorem witness_BoundaryOrder_exception : ({ State.reset with scr := 0xF, exc := 1#64 <<< 63 } : State).nmiPending = false ∧
    ({ State.reset with scr := 0xF, exc := 1#64 <<< 63 } : State).scr.getLsbD 2 = true ∧
    ∃ n, n < 64 ∧ ({ State.reset with scr := 0xF, exc := 1#64 <<< 63 } : State).exc.getLsbD n = true ∧
      State.reset.exm.getLsbD n = false := ⟨rfl, by decide +kernel, 63, by decide +kernel⟩

theorem witness_BoundaryOrder_interrupt :
    ({ State.reset with scr := 0xD, exc := 2, exm := 2, irqPending := true } : State).irqPending = true ∧
    ({ State.reset with scr := 0xD, exc := 2, exm := 2, irqPending := true } : State).scr.getLsbD 3 = true ∧
    ¬({ State.reset with scr := 0xD, exc := 2, exm := 2, irqPending := true } : State).potent 2 = true := by decide +kernel

theorem witness_BoundaryOrder_fetch : (onConfig State.reset fun c => { c with translation := nothingMapped }).quiet.fetch = none ∧
    State.reset.quiet.fetch = some 0 := by decide +kernel

/-- An action of the environment: both lines requested, DSP EXCEPTION 0 raised, a byte written. -/
theorem witness_BoundaryOrder_inputs :
    ({ State.reset with inputs := [{ nmi := true, irq := true, raise := [16], writes := [(2 ^ 32, 1)] }] } : State).inputs =
      { nmi := true, irq := true, raise := [16], writes := [(2 ^ 32, 1)] } :: [] ∧
    ({ nmi := true, irq := true, raise := [16], writes := [(2 ^ 32, 1)] } : Input).reset = false ∧
    Memory.wf State.reset.mem = true ∧ (onConfig State.reset withFiles).cfg.dsp.isSome = true := by decide +kernel

theorem witness_EntryThenReturn : (at5 0 []).ic.toNat < 2 ^ (at5 0 []).cfg.icw ∧ (at5 0 []).cfg.has .rete = true ∧
    (at5 0 []).cfg.has .retn = true ∧ (at5 0 []).cfg.has .reti = true := by decide +kernel

theorem witness_FetchFailure_impotent :
    (onConfig State.reset fun c => { c with translation := nothingMapped }).ReadyToFetch ∧
    (onConfig State.reset fun c => { c with translation := nothingMapped }).quiet.fetch = none ∧
    (onConfig State.reset fun c => { c with translation := nothingMapped }).scr.getLsbD 2 = false :=
  ⟨⟨by decide +kernel, rfl, rfl, rfl, by decide +kernel, rfl⟩, by decide +kernel, by decide +kernel⟩

theorem witness_FetchFailure_potent :
    (armed (onConfig State.reset fun c => { c with translation := nothingMapped })).ReadyToFetch ∧
    (armed (onConfig State.reset fun c => { c with translation := nothingMapped })).quiet.fetch = none ∧
    (armed State.reset).scr.getLsbD 2 = true ∧ (armed State.reset).exm.getLsbD 20 = false :=
  ⟨⟨by decide +kernel, rfl, rfl, rfl, by decide +kernel, rfl⟩, by decide +kernel, by decide +kernel, by decide +kernel⟩

theorem witness_FetchFailure_stuck : ({ State.reset with run := .stuck } : State).inputs = [] ∧
    State.reset.cfg.valid = true ∧
    ({ State.reset with run := .stuck, inputs := [{ nmi := true }] } : State).inputs = { nmi := true } :: [] ∧
    ({ nmi := true } : Input).reset = false := by decide +kernel

/-- An implementation with a file of its own still traps on a free AUXCODE it does not use. -/
theorem witness_InvalidInstructionTraps_extra : (withFilesAt 0xC915C000).ReadyToFetch ∧
    (withFilesAt 0xC915C000).quiet.fetch = some 0xC915C000 ∧ InvalidWord 0xC915C000 ∧
    ∀ f ∈ (withFilesAt 0xC915C000).cfg.extraFiles,
      f.toGpr ≠ some ((0xC915C000 : Word).extractLsb' 14 4) ∧ f.fromGpr ≠ some ((0xC915C000 : Word).extractLsb' 14 4) :=
  ⟨⟨by decide +kernel, rfl, rfl, rfl, by decide +kernel, rfl⟩, by decide +kernel, by unfold InvalidWord; decide,
    by decide +kernel⟩

theorem witness_InvalidInstructionTraps : (at5 0x00034000 []).ReadyToFetch ∧ (at5 0x00034000 []).debugMode = false ∧
    (at5 0x00034000 []).quiet.fetch = some 0x00034000 ∧ InvalidWord 0x00034000 :=
  ⟨⟨by decide +kernel, rfl, rfl, rfl, by decide +kernel, rfl⟩, by decide +kernel, by decide +kernel, by unfold InvalidWord; decide⟩

theorem witness_SystemReset : ({ State.reset with inputs := [{ reset := true }], run := .stuck } : State).inputs =
    { reset := true } :: [] ∧ State.reset.cfg.valid = true := ⟨rfl, by decide +kernel⟩

theorem witness_SystemReset_values : ({ State.reset with inputs := [{ reset := true }], est := 5 } : State).inputs =
    { reset := true } :: [] ∧ State.reset.cfg.valid = true ∧ State.reset.cfg.cidReset = 0 := ⟨rfl, by decide +kernel, rfl⟩

/-- A waiting core. -/
def waiting (r : Run) (n : Nat) : State := { at5 0x440381F4 [] with run := r, waitTimer := n, scr := 9 }

theorem witness_WaitInstruction_cycle : (waiting .waitingTimed 1).cfg.valid = true ∧ (waiting .waitingTimed 1).inputs = [] ∧
    (waiting .waitingTimed 1).run = .waitingTimed ∧ (waiting .waitingForever 0).run = .waitingForever ∧
    (waiting .waitingTimed 1).debugMode = false ∧ (waiting .waitingTimed 1).nmiPending = false ∧
    ¬((waiting .waitingTimed 1).irqPending = true ∧ (waiting .waitingTimed 1).scr.getLsbD 3 = true) ∧
    2 ≤ (waiting .waitingTimed 2).waitTimer ∧ (waiting .waitingTimed 1).waitTimer ≤ 1 := by decide +kernel

theorem witness_WaitInstruction_cycle_wakes : ({ waiting .waitingTimed 2 with irqPending := true } : State).irqPending = true ∧
    ({ waiting .waitingTimed 2 with irqPending := true } : State).scr.getLsbD 3 = true ∧
    ({ waiting .waitingForever 0 with nmiPending := true } : State).nmiPending = true := by decide +kernel

theorem witness_WaitInstruction_cycle_inputs :
    ({ waiting .waitingForever 0 with inputs := [{ irq := true }] } : State).inputs = { irq := true } :: [] ∧
    ({ irq := true } : Input).reset = false := by decide +kernel

theorem witness_UserModeStaysUser : ({ at5 0 [] with scr := 0 } : State).scr.getLsbD 0 = false ∧
    gives (.reti false) { at5 0 [] with scr := 0 } (fun _ => true) = true := by decide +kernel

theorem witness_UserModeStaysUser_entries :
    after { at5 0 [] with scr := 0, nmiPending := true } (fun t => t.scr.getLsbD 0) = some true ∧
    after { at5 0 [] with scr := 4, exc := 2 } (fun t => t.scr.getLsbD 0) = some true ∧
    after { at5 0 [] with scr := 8, irqPending := true } (fun t => t.scr.getLsbD 0) = some true := by decide +kernel

/-- A request that arrives in the step leaves user mode, as a reset does; without one the core stays there. -/
theorem witness_UserModeStaysUser_inputs :
    let user (scr : Word) (i : Input) := after { at5 0 [] with scr := scr, inputs := [i] } fun t => t.scr.getLsbD 0
    user 0 { nmi := true } = some true ∧ user 8 { irq := true } = some true ∧ user 0 { reset := true } = some true ∧
    user 0 { irq := true } = some false ∧
    after { onConfig (at5 0 []) withFiles with scr := 4, inputs := [{ raise := [16] }] } (fun t => t.scr.getLsbD 0) =
      some true := by decide +kernel

theorem witness_PotentExceptionAbandons : (armed (at5 0 [])).abandoned = false ∧
    gives (.divR .w false 3 2) (armed (at5 0 [])) (fun t => t.abandoned) = true := ⟨rfl, by decide +kernel⟩

/-! ### Integer arithmetic -/

theorem witness_AddSubResult_fits : (at5 0 [(3, 0xFFFFFFFE), (2, 1)]).cfg.implements .add .w = true ∧
    (3 : RegNum).toNat < (at5 0 []).cfg.ngpr ∧
    (at5 0 [(3, 0xFFFFFFFE), (2, 1)]).SecondOperand MMode.w.width true (.addR .w true 3) (.addI .w true 3)
      (.addR .w true 3 2) ((at5 0 [(3, 0xFFFFFFFE), (2, 1)]).readGpr 2 MMode.w.width) ∧
    valueOf true ((at5 0 [(3, 0xFFFFFFFE), (2, 1)]).readGpr 3 32) +
      valueOf true ((at5 0 [(3, 0xFFFFFFFE), (2, 1)]).readGpr 2 32) = 2 ^ 32 - 1 :=
  ⟨by decide +kernel, by decide +kernel, .inl ⟨2, rfl, by decide +kernel, rfl⟩, by decide +kernel⟩

theorem witness_AddSubResult_overflows : (at5 0 [(3, 0x80000000)]).cfg.implements .sub .w = true ∧
    (at5 0 [(3, 0x80000000)]).SecondOperand MMode.w.width false (.subR .w false 3) (.subI .w false 3)
      (.subI .w false 3 1) 1 ∧
    valueOf false ((at5 0 [(3, 0x80000000)]).readGpr 3 32) - valueOf false (1 : BitVec 32) = -2 ^ 31 - 1 ∧
    (at5 0 [(3, 0x80000000)]).potent 0x200 = false ∧ (armed (at5 0 [(3, 0x80000000)])).potent 0x200 = true :=
  ⟨by decide +kernel, .inr ⟨1, rfl, by decide +kernel⟩, by decide +kernel, by decide +kernel, by decide +kernel⟩

theorem witness_MulProduct : (at5 0 []).cfg.implements .mul .w = true ∧ (63 : RegNum).toNat < (at5 0 []).cfg.ngpr ∧
    (at5 0 []).SecondOperand MMode.w.width false (.mulR .w false 63) (.mulI .w false 63) (.mulI .w false 63 0x2000)
      (extend false 32 (0x2000 : BitVec 14)) ∧ pieces (2 * MMode.w.width) (at5 0 []).cfg.gprw.width ≤ (at5 0 []).cfg.ngpr ∧
    (at5 0 []).bankBase + (at5 0 []).cfg.ngpr ≤ (at5 0 []).gpr.length :=
  ⟨by decide +kernel, by decide +kernel, .inr ⟨0x2000, rfl, rfl⟩, by decide +kernel, by decide +kernel⟩

/-- A mode wider than REF32 provides, no multiplier, and a register that does not exist. -/
theorem witness_MulProduct_traps : (at5 0 []).cfg.implements .mul .d = false ∧
    (onConfig (at5 0 []) fun c => { c with hasMul := false }).cfg.imp.getLsbD 45 = false ∧
    (onConfig (at5 0 []) fun c => { c with ngpr := 8 }).cfg.implements .mul .w = true ∧
    (onConfig (at5 0 []) fun c => { c with ngpr := 8 }).cfg.ngpr ≤ (8 : RegNum).toNat := by decide +kernel

theorem witness_DivQuotientRemainder_normal : (at5 0 [(3, 7)]).cfg.implements .div .w = true ∧ (3 : RegNum).toNat < (at5 0 [(3, 7)]).cfg.ngpr ∧
    (at5 0 [(3, 7)]).SecondOperand MMode.w.width false (.divR .w false 3) (.divI .w false 3) (.divI .w false 3 2) 2 ∧
    (2 : BitVec MMode.w.width) ≠ 0 := ⟨by decide +kernel, by decide +kernel, .inr ⟨2, rfl, by decide +kernel⟩, by decide +kernel⟩

theorem witness_DivQuotientRemainder_byZero : (at5 0 [(3, 7)]).SecondOperand MMode.w.width false (.divR .w false 3) (.divI .w false 3)
      (.divI .w false 3 0) 0 ∧ (at5 0 [(3, 7)]).potent 0x100 = false ∧ (armed (at5 0 [(3, 7)])).potent 0x100 = true :=
  ⟨.inr ⟨0, rfl, by decide +kernel⟩, by decide +kernel, by decide +kernel⟩

theorem witness_DivQuotientRemainder_overflows : (at5 0 [(3, 0x80000000)]).SecondOperand MMode.w.width false (.divR .w false 3)
      (.divI .w false 3) (.divI .w false 3 0x3FFF) (BitVec.allOnes MMode.w.width) ∧
    (at5 0 [(3, 0x80000000)]).readGpr 3 32 = BitVec.intMin 32 ∧ (at5 0 [(3, 0x80000000)]).potent 0x200 = false ∧
    (armed (at5 0 [(3, 0x80000000)])).potent 0x200 = true :=
  ⟨.inr ⟨0x3FFF, rfl, by decide +kernel⟩, by decide +kernel, by decide +kernel, by decide +kernel⟩

theorem witness_MadMsuResult : (at5 0 []).cfg.implements .mad .w = true ∧ (at5 0 []).cfg.implements .msu .w = true ∧
    (at5 0 []).ThirdOperand MMode.w.width true (.msuR .w true 3 2) (.msuI .w true 3 2) (.msuI .w true 3 2 0xFF) 0xFF ∧
    (at5 0 []).ThirdOperand MMode.w.width true (.madR .w true 3 2) (.madI .w true 3 2) (.madR .w true 3 2 1)
      ((at5 0 []).readGpr 1 MMode.w.width) :=
  ⟨by decide +kernel, by decide +kernel, .inr ⟨0xFF, rfl, by decide +kernel⟩, .inl ⟨1, rfl, by decide +kernel, rfl⟩⟩

/-! ### Shifts, rotates, logic, bit operations -/

theorem witness_ShiftResult_keepsMsb : (at5 0 [(3, 0x3FFFFFFF)]).cfg.implements .sl .w = true ∧
    (at5 0 [(3, 0x3FFFFFFF)]).SecondOperand MMode.w.width false (.slR .w false 3) (.slI .w false 3) (.slI .w false 3 1) 1 ∧
    (BitVec.ofNat 32 (((at5 0 [(3, 0x3FFFFFFF)]).readGpr 3 32).toNat * 2 ^ 1)).getLsbD 31 =
      ((at5 0 [(3, 0x3FFFFFFF)]).readGpr 3 32).getLsbD 31 :=
  ⟨by decide +kernel, .inr ⟨1, rfl, by decide +kernel⟩, by decide +kernel⟩

theorem witness_ShiftResult_changesMsb :
    (BitVec.ofNat 32 (((at5 0 [(3, 0x40000000)]).readGpr 3 32).toNat * 2 ^ 1)).getLsbD 31 ≠
      ((at5 0 [(3, 0x40000000)]).readGpr 3 32).getLsbD 31 ∧
    (at5 0 [(3, 0x40000000)]).potent 0x200 = false ∧ (armed (at5 0 [(3, 0x40000000)])).potent 0x200 = true := by
  decide +kernel

theorem witness_ShiftResult_right : (at5 0 []).cfg.implements .sr .w = true ∧
    (at5 0 []).SecondOperand MMode.w.width true (.srR .w true 3) (.srI .w true 3) (.srI .w true 3 32) 32 :=
  ⟨by decide +kernel, .inr ⟨32, rfl, by decide +kernel⟩⟩

theorem witness_RotateResult : (at5 0 []).cfg.implements .rl .h = true ∧ (at5 0 []).cfg.implements .rr .h = true ∧
    (at5 0 []).SecondOperand MMode.h.width false (.rlR .h 3) (.rlI .h 3) (.rlI .h 3 0x25) 0x25 ∧
    (at5 0 [(2, 16)]).SecondOperand MMode.h.width true (.rrR .h 3) (.rrI .h 3) (.rrR .h 3 2)
      ((at5 0 [(2, 16)]).readGpr 2 MMode.h.width) :=
  ⟨by decide +kernel, by decide +kernel, .inr ⟨0x25, rfl, by decide +kernel⟩, .inl ⟨2, rfl, by decide +kernel, rfl⟩⟩

theorem witness_LogicResult : (at5 0 []).cfg.implements .and .w = true ∧ (at5 0 []).cfg.implements .nand .w = true ∧
    (at5 0 []).cfg.implements .or .w = true ∧ (at5 0 []).cfg.implements .xor .w = true ∧
    (at5 0 []).SecondOperand MMode.w.width true (.andR .w 3) (.andI .w true 3) (.andI .w true 3 0x3FFF) 0x3FFF ∧
    (at5 0 []).SecondOperand MMode.w.width false (.nandR .w 3) (.nandI .w false 3) (.nandI .w false 3 0x3FFF)
      (BitVec.allOnes MMode.w.width) ∧
    (at5 0 []).SecondOperand MMode.w.width false (.orR .w 3) (.orI .w false 3) (.orR .w 3 63)
      ((at5 0 []).readGpr 63 MMode.w.width) ∧
    (at5 0 []).SecondOperand MMode.w.width false (.xorR .w 3) (.xorI .w false 3) (.xorR .w 3 3)
      ((at5 0 []).readGpr 3 MMode.w.width) :=
  ⟨by decide +kernel, by decide +kernel, by decide +kernel, by decide +kernel, .inr ⟨0x3FFF, rfl, by decide +kernel⟩, .inr ⟨0x3FFF, rfl, by decide +kernel⟩,
    .inl ⟨63, rfl, by decide +kernel, rfl⟩, .inl ⟨3, rfl, by decide +kernel, rfl⟩⟩

theorem witness_BitOperationsResult : (31 : BitVec MMode.w.width).toNat < MMode.w.width ∧
    (31 : BitVec MMode.w.width).toNat < (at5 0 []).cfg.aluw.width ∧
    ((at5 0 []).cfg.implements .sb .w = true ∧
      (at5 0 []).SecondOperand MMode.w.width false (.sbR .w 3) (.sbI .w 3) (.sbI .w 3 31) 31) ∧
    ((at5 0 []).cfg.implements .rb .w = true ∧
      (at5 0 []).SecondOperand MMode.w.width true (.rbR .w 3) (.rbI .w 3) (.rbI .w 3 31) 31) ∧
    ((at5 0 []).cfg.implements .tb .w = true ∧
      (at5 0 []).SecondOperand MMode.w.width false (.tbR .w 3) (.tbI .w 3) (.tbI .w 3 31) 31) ∧
    ((at5 0 []).cfg.implements .rvb .w = true ∧
      (at5 0 []).SecondOperand MMode.w.width true (.rvbR .w 3) (.rvbI .w 3) (.rvbI .w 3 31) 31) :=
  ⟨by decide +kernel, by decide +kernel, ⟨by decide +kernel, .inr ⟨31, rfl, by decide +kernel⟩⟩, ⟨by decide +kernel, .inr ⟨31, rfl, by decide +kernel⟩⟩,
    ⟨by decide +kernel, .inr ⟨31, rfl, by decide +kernel⟩⟩, ⟨by decide +kernel, .inr ⟨31, rfl, by decide +kernel⟩⟩⟩

theorem witness_InvalidBitNumber : MMode.w.width ≤ (32 : BitVec MMode.w.width).toNat ∧
    ((at5 0 []).cfg.implements .tb .w = true ∧
      (at5 0 []).SecondOperand MMode.w.width false (.tbR .w 3) (.tbI .w 3) (.tbI .w 3 32) 32) ∧
    (at5 0 []).potent 0x80 = false ∧ (armed (at5 0 [])).potent 0x80 = true :=
  ⟨by decide +kernel, ⟨by decide +kernel, .inr ⟨32, rfl, by decide +kernel⟩⟩, by decide +kernel, by decide +kernel⟩

theorem witness_InvalidBitNumber_aluw :
    (onConfig (at5 0 []) fun c => { c with aluw := .h }).cfg.aluw.width ≤ (16 : BitVec MMode.w.width).toNat := by decide +kernel

/-! ### Floating point -/

/-- Both ends of an FP instruction that raised: potent where exceptions are enabled and unmasked, else impotent. -/
theorem witness_fpOutcome : (armed (at5 0 [])).potent (excMask [.fpInvalidOperation, .fpInexactResult]) = true ∧
    (at5 0 []).potent (excMask [.fpInvalidOperation, .fpInexactResult]) = false ∧
    (armed (at5 0 [])).potent (excMask []) = false := by decide +kernel

theorem witness_FpBinaryTernaryResult : (at5 0 []).fpsExist [3, 2, 63] = true ∧
    (at5 0 []).cfg.implementsFp .fadd = true ∧ (at5 0 []).cfg.implementsFp .fsub = true ∧
    (at5 0 []).cfg.implementsFp .fmul = true ∧ (at5 0 []).cfg.implementsFp .fdiv = true ∧
    (at5 0 []).cfg.implementsFp .frem = true ∧ (at5 0 []).cfg.implementsFp .fmad = true ∧
    (at5 0 []).cfg.implementsFp .fmsu = true :=
  ⟨by decide +kernel, by decide +kernel, by decide +kernel, by decide +kernel, by decide +kernel, by decide +kernel, by decide +kernel, by decide +kernel⟩

theorem witness_FpUnaryResult : (at5 0 []).fpsExist [63] = true ∧
    (at5 0 []).cfg.implementsFp .fsqr = true ∧ (at5 0 []).cfg.implementsFp .frnd = true ∧
    (at5 0 []).cfg.implementsConvert .fi2f .w = true ∧ (at5 0 []).cfg.implementsFormat .fext .w = true :=
  ⟨by decide +kernel, by decide +kernel, by decide +kernel, by decide +kernel, by decide +kernel⟩

theorem witness_FpSignOperationsResult : (at5 0 []).fpsExist [3] = true ∧ 1 ≤ (at5 0 []).cfg.fpFmt.fracBits ∧
    (at5 0 []).cfg.implementsFp .fneg = true ∧ (at5 0 []).cfg.implementsFp .fabs = true ∧
    FpVal.isSignaling ((at5 0 [(3, 0x7FC00000)]).fpValue 3) = false ∧
    FpVal.isSignaling ((at5 0 [(3, 0x7FBFFFFF)]).fpValue 3) = true :=
  ⟨by decide +kernel, by decide +kernel, by decide +kernel, by decide +kernel, by decide +kernel, by decide +kernel⟩

theorem witness_FpCompareResult : (at5 0 []).fpsExist [3, 2] = true ∧
    (at5 0 []).cfg.implementsFp .fcmp = true ∧
    FpVal.isFinite ((at5 0 [(3, 0x80000000), (2, 0x7F7FFFFF)]).fpValue 3) = true ∧
    FpVal.isFinite ((at5 0 [(3, 0x80000000), (2, 0x7F7FFFFF)]).fpValue 2) = true :=
  ⟨by decide +kernel, by decide +kernel, by decide +kernel, by decide +kernel⟩

theorem witness_FpNarrowingResult : (at5 0 []).fpsExist [3] = true ∧
    (at5 0 []).cfg.implementsConvert .ff2i .h = true ∧ (at5 0 []).cfg.implementsFormat .fsqz .h = true ∧
    (at5 0 [(3, 0x46FFFE00)]).fpToInt ((at5 0 [(3, 0x46FFFE00)]).fpValue 3) = some (2 ^ 15 - 1, true) ∧
    (at5 0 [(3, 0x47000000)]).fpToInt ((at5 0 [(3, 0x47000000)]).fpValue 3) = some (2 ^ 15, true) ∧
    FpVal.isFinite ((at5 0 [(3, 0x7F800000)]).fpValue 3) = false :=
  ⟨by decide +kernel, by decide +kernel, by decide +kernel, by decide +kernel, by decide +kernel, by decide +kernel⟩

theorem witness_FpExactArithmetic : FpVal.isFinite (.fin false 3 (-1)) = true ∧ FpVal.isFinite (.fin true 1 0) = true ∧
    FpVal.rat (.fin false 3 (-1)) + FpVal.rat (.fin true 1 0) ≠ 0 ∧
    FpVal.rat (.fin false 3 (-1)) * FpVal.rat (.fin true 1 0) ≠ 0 ∧ FpVal.rat (.fin true 1 0) ≠ 0 ∧
    FpVal.rat (.fin false 3 (-1)) / FpVal.rat (.fin true 1 0) ≠ 0 ∧
    FpVal.rat (.fin false 3 (-1)) * FpVal.rat (.fin true 1 0) + FpVal.rat (.fin true 1 0) ≠ 0 := by
  refine ⟨rfl, rfl, ?_⟩
  norm_num [FpVal.rat]

/-- Rounding an assigned mode, a finite result and an overflow. -/
theorem witness_FpExactArithmetic_rounded : let f : FpFmt := { expBits := 8, fracBits := 23 }
    (at5 0 []).rounding = some .nearestEven ∧ 1 ≤ f.fracBits ∧
    (FpFmt.roundMag f .nearestEven true 1 3 0).1 < FpFmt.infBits f ∧
    FpFmt.infBits f ≤ (FpFmt.roundMag f .nearestEven true 1 1 128).1 ∧ 0x7F7FFFFF < FpFmt.infBits f := by decide +kernel

/-- Half and single precision: a finite value, an infinity, a quiet and a signaling NaN of either. -/
theorem witness_FpFormatValues : let h : FpFmt := { expBits := 5, fracBits := 10 }
    let f : FpFmt := { expBits := 8, fracBits := 23 }
    1 ≤ h.fracBits ∧ 1 ≤ f.expBits ∧ h.fracBits ≤ f.fracBits ∧ FpFmt.fits h f = true ∧
    FpVal.isFinite (FpFmt.unpack h 0x8001) = true ∧ FpFmt.unpack h 0xFC00 = .inf true ∧
    FpFmt.unpack h 0xFE01 = .nan true true 0x201 ∧ FpVal.isSignaling (FpFmt.unpack h 0x7C01) = true ∧
    FpFmt.unpack f 0x3F800000 = .fin false (2 ^ 23) (-23) ∧ FpFmt.unpack f 0x80000000 = .fin true 0 (-149) ∧
    FpFmt.unpack f 0xFFC00000 = .nan true true (2 ^ 22) := by decide +kernel

/-- 5/2 in single precision under Nearest even, and the largest half number, which rounds to itself. -/
theorem witness_FpIntegerValues : let f : FpFmt := { expBits := 8, fracBits := 23 }
    (at5 0 []).rounding = some .nearestEven ∧ 1 ≤ f.fracBits ∧ FpFmt.unpack f 0x40200000 = .fin false 0xA00000 (-22) ∧
    |FpVal.rat (.fin false 0xA00000 (-22))| = 5 / 2 ∧ ¬Rounding.goesUp .nearestEven false false 2 (5 / 2) 3 ∧
    FpFmt.magnitude { expBits := 5, fracBits := 10 } 0x7BFF = 65504 := by
  refine ⟨by decide +kernel, by decide +kernel, by decide +kernel, ?_, ?_, ?_⟩ <;>
    norm_num [FpVal.rat, Rounding.goesUp, FpFmt.magnitude, FpFmt.minQuantum, FpFmt.bias]

/-- An unassigned code of FP ROUNDING MODE aside: a finite dividend, a finite and an infinite divisor, an exact and an
inexact root. -/
theorem witness_FpRemainderRoot : let f : FpFmt := { expBits := 8, fracBits := 23 }
    1 ≤ f.fracBits ∧ 1 ≤ f.expBits ∧ (at5 0 []).rounding = some .nearestEven ∧
    FpFmt.unpack f 0x40A00000 = .fin false 0xA00000 (-21) ∧ FpVal.rat (.fin false 0xA00000 (-21)) = 5 ∧
    FpFmt.unpack f 0x7F800000 = .inf false ∧ FpFmt.unpack f 0x80000000 = .fin true 0 (-149) ∧
    FpVal.rat (.fin true 0 (-149)) = 0 ∧ FpFmt.magnitude f 0x40000000 = 2 := by
  refine ⟨by decide +kernel, by decide +kernel, by decide +kernel, by decide +kernel, ?_, by decide +kernel,
    by decide +kernel, ?_, ?_⟩ <;> norm_num [FpVal.rat, FpFmt.magnitude, FpFmt.minQuantum, FpFmt.bias]

/-- Infinities of both signs, a zero, a nonzero number, the two zeros, NaNs of both kinds, the exact sum of 1 and -1. -/
theorem witness_FpSpecialResults : FpVal.isFinite (.fin true 0 0) = true ∧ FpVal.rat (.fin true 0 0) = 0 ∧
    FpVal.rat (.fin false 1 0) ≠ 0 ∧ FpVal.rat (.fin false 1 0) + FpVal.rat (.fin true 1 0) = 0 ∧
    FpVal.rat (.fin true 1 0) < 0 ∧ FpVal.isNan (.nan true true 1) = true ∧ FpVal.isSignaling (.nan true false 1) = true ∧
    (at5 0 []).rounding = some .nearestEven := by
  refine ⟨rfl, ?_, ?_, ?_, ?_, rfl, rfl, by decide +kernel⟩ <;> norm_num [FpVal.rat]

/-- A signaling NaN as a result becomes the quiet NaN of an invalid operation, an infinity stays (R314, R330). -/
theorem witness_FpSpecialResults_nan : let f : FpFmt := { expBits := 8, fracBits := 23 }
    1 ≤ f.expBits ∧ 1 ≤ f.fracBits ∧
    (0x7F800001 / 2 ^ f.fracBits % 2 ^ f.expBits = 2 ^ f.expBits - 1 ∧ 0x7F800001 % 2 ^ f.fracBits ≠ 0) ∧
    FpFmt.nanInvalid f { bits := 0x7F800001, inexact := true } = { bits := 0x7FC00000, invalid := true } ∧
    FpFmt.nanInvalid f { bits := 0x7F800000, overflow := true } = { bits := 0x7F800000, overflow := true } := by
  decide +kernel

/-- A double FPU on a natural width of 32 bits: FEXT_D and FSQZ_D are optional, FEXT_W is not (R9, R22, R159). -/
theorem test_optional_formats :
    let double (wider : List (Mnemonic × MMode)) : Config :=
      { Config.ref32 with fpu := .double, fpFmt := { expBits := 11, fracBits := 52 }, wider := wider }
    let both (c : Config) (i : Mnemonic → MMode → Instr) (mn : Mnemonic) (m : MMode) :=
      (c.implementsFormat mn m, Instr.provided c (i mn m))
    let instr (mn : Mnemonic) (m : MMode) : Instr := if mn = .fext then .fext m 3 else .fsqz m 3
    (double []).valid = true ∧ both (double []) instr .fext .d = (false, false) ∧
    both (double []) instr .fext .w = (true, true) ∧ both (double [(.fext, .d)]) instr .fext .d = (true, true) ∧
    both (double [(.fext, .d)]) instr .fsqz .d = (false, false) ∧
    both (double [(.fext, .q)]) instr .fext .q = (false, false) := by decide +kernel

theorem witness_StatusFlagBits : 1 ≤ (at5 0 []).cfg.fpFmt.expBits ∧ 1 ≤ (at5 0 []).cfg.fpFmt.fracBits := by decide +kernel

/-- 45_floating_point.md R315, Example 40: GREATER THAN, INEXACT, SIGN and DENORMALIZED make EST 0x1540. -/
theorem test_flag_places : EstFlags.bits { greaterThan := true, inexact := true, sign := true, denormalized := true } = 0x1540 := by
  decide +kernel

/-- Single precision: `2^24` is exact, `2^24 + 1` a tie between two neighbours. -/
theorem witness_FpRounding : let f : FpFmt := { expBits := 8, fracBits := 23 }
    1 ≤ f.fracBits ∧ (FpFmt.roundMag f .toZero false (2 ^ 24) 1 0).1 = 0x4B800000 ∧
    (FpFmt.roundMag f .toZero false (2 ^ 24 + 1) 1 0).1 = 0x4B800000 ∧ FpFmt.magnitude f 0x4B800000 = 2 ^ 24 ∧
    FpFmt.magnitude f 0x4B800001 = 2 ^ 24 + 2 ∧
    Rounding.goesUp .nearestOdd false false (2 ^ 24) (2 ^ 24 + 1) (2 ^ 24 + 2) ∧
    ¬Rounding.goesUp .nearestEven false false (2 ^ 24) (2 ^ 24 + 1) (2 ^ 24 + 2) := by
  refine ⟨by decide +kernel, by decide +kernel, by decide +kernel, ?_, ?_, ?_, ?_⟩ <;>
    norm_num [FpFmt.magnitude, FpFmt.minQuantum, FpFmt.bias, Rounding.goesUp]

/-! ### Program transfer, returns, WAIT -/

theorem witness_ProgramTransfer_jump : (at5 0 []).cfg.has .jmp = true ∧ (at5 0 []).cfg.icw ≤ 64 ∧ (63 : RegNum).toNat < (at5 0 []).cfg.ngpr := by
  decide

/-- The conditions on ARGUMENT: 0, all ones, the MSB alone, and the LSB alone decide every condition both ways. -/
theorem witness_ProgramTransfer_branch : (at5 0 []).cfg.icw ≤ 64 ∧
    (∀ c ∈ [Cond.z, .nz, .m, .mz, .nm, .nmo, .l, .lz, .nl, .nlo, .o, .no],
      (at5 0 []).cfg.implements (Cond.mnemonic c) .b = true) ∧
    (at5 0 [(2, 0), (3, 0xFF), (4, 0x80), (5, 1)]).readGpr 2 8 = 0 ∧
    (at5 0 [(2, 0), (3, 0xFF), (4, 0x80), (5, 1)]).readGpr 3 8 = 0xFF ∧
    (at5 0 [(2, 0), (3, 0xFF), (4, 0x80), (5, 1)]).readGpr 4 8 = 0x80 ∧
    (at5 0 [(2, 0), (3, 0xFF), (4, 0x80), (5, 1)]).readGpr 5 8 = 1 := by decide +kernel

/-- BNM meets its condition on 7FH and not on 80H; the state is the one of Example 72. -/
theorem witness_BranchConditions : (at5 0 [(2, 0x7F), (4, 0x80)]).cfg.implements (Cond.mnemonic .nm) .b = true ∧
    (at5 0 [(2, 0x7F), (4, 0x80)]).cfg.has .jmp = true ∧ (63 : RegNum).toNat < (at5 0 []).cfg.ngpr ∧
    Cond.Met .nm ((at5 0 [(2, 0x7F), (4, 0x80)]).readGpr 2 8) ∧ ¬Cond.Met .nm ((at5 0 [(2, 0x7F), (4, 0x80)]).readGpr 4 8) ∧
    (at5 0 [(2, 0x7F), (4, 0x80)]).ic.toNat + 1 < 2 ^ (at5 0 []).cfg.icw := by
  simp only [Cond.Met]
  decide +kernel

theorem witness_ReturnsComplete_ret : (at5 0 []).cfg.icw ≤ 64 ∧ (at5 0 []).cfg.has .ret = true ∧ (at5 0 []).cfg.has .reti = true ∧
    (at5 0 []).savIrq = none ∧ ({ at5 0 [] with savIrq := some true } : State).savIrq = some true := by decide +kernel

theorem witness_ReturnsComplete_rete : (at5 0 []).scr.getLsbD 0 = true ∧ (at5 0 []).cfg.icw ≤ 64 ∧ (at5 0 []).cfg.has .rete = true ∧
    (at5 0 []).cfg.has .retn = true ∧ (at5 0 []).savExc = none ∧ (at5 0 []).savNmi = none ∧
    ({ at5 0 [] with savExc := some ⟨true, false, true⟩ } : State).savExc = some ⟨true, false, true⟩ ∧
    ({ at5 0 [] with savNmi := some ⟨true, false, true⟩ } : State).savNmi = some ⟨true, false, true⟩ ∧
    (0xFFF0F : Word).extractLsb' 4 4 = (at5 0 []).scr.extractLsb' 4 4 := by decide +kernel

theorem witness_WaitInstruction : (at5 0 []).cfg.has .wait = true ∧ (63 : RegNum).toNat < (at5 0 []).cfg.ngpr ∧
    (0 : BitVec 20).toNat = 0 ∧ (1 : BitVec 20).toNat ≠ 0 := by decide +kernel

/-! ### Data transfer -/

theorem ready_transfer (s : State) (h : s.cfg = Config.ref32) (m : MMode) (hm : m.width ≤ 64) (d : RegNum) (a : Addr) :
    s.TransferReady m d a := by
  refine ⟨by rw [h]; exact hm, by rw [h]; exact d.isLt, fun r _ => by rw [h]; exact r.isLt⟩

theorem witness_LoadCompletes : (at5 7 [(2, 20)]).TransferReady .w 3 (.disp 2 0) ∧
    (at5 7 [(2, 20)]).memRead .read ((at5 7 [(2, 20)]).effective .w (.disp 2 0)) MMode.w.width = some 7 :=
  ⟨ready_transfer _ rfl _ (by decide +kernel) _ _, by decide +kernel⟩

theorem witness_StoreCompletes : (at5 0 [(2, 0xFFFFFFFE)]).TransferReady .w 3 (.reg 2 .postInc) ∧
    (at5 0 [(2, 0xFFFFFFFE)]).physRange .write ((at5 0 [(2, 0xFFFFFFFE)]).effective .w (.reg 2 .postInc)) 4 =
      some [0xFFFFFFFE, 0xFFFFFFFF, 0, 1] ∧ Memory.wf (at5 7 [(2, 0xFFFFFFFE)]).mem = true ∧
    [0xFFFFFFFE, 0xFFFFFFFF, 0, 1].Nodup :=
  ⟨ready_transfer _ rfl _ (by decide +kernel) _ _, by decide +kernel, by decide +kernel, by decide +kernel⟩

/-- A state with a reservation of the word at address 20. -/
def locked : State := { at5 0 [(2, 20)] with resv := some ⟨20, 4, [20, 21, 22, 23]⟩ }

theorem witness_StoreConditionalCompletes : locked.TransferReady .w 3 (.indexed 2 1 .keep) ∧
    locked.effective .w (.indexed 2 1 .keep) = 20 ∧ locked.maySucceed = true ∧
    (∃ r, locked.resv = some r ∧ r.addr = 20 ∧ r.bytes = MMode.w.width / 8) ∧
    locked.physRange .write 20 4 = some [20, 21, 22, 23] ∧ (at5 0 [(2, 20)]).resv = none :=
  ⟨ready_transfer _ rfl _ (by decide +kernel) _ _, by decide +kernel, rfl, ⟨_, rfl, rfl, rfl⟩, by decide +kernel, rfl⟩

theorem witness_LoadLockedStoreConditional :
    (at5 7 [(2, 20)]).cfg.translation = [] ∧ (at5 7 [(2, 20)]).dataFault = false ∧
    (at5 7 [(2, 20)]).TransferReady .w 3 (.disp 2 0) ∧
    exec (.load true .w 3 (.disp 2 0)) (at5 7 [(2, 20)]) = .next ((at5 7 [(2, 20)]).load true .w 3 (.disp 2 0)) ∧
    ((at5 7 [(2, 20)]).load true .w 3 (.disp 2 0)).TransferReady .w 4 (.reg 2 .keep) ∧
    ((at5 7 [(2, 20)]).load true .w 3 (.disp 2 0)).effective .w (.reg 2 .keep) =
      (at5 7 [(2, 20)]).effective .w (.disp 2 0) ∧
    ((at5 7 [(2, 20)]).load true .w 3 (.disp 2 0)).maySucceed = true :=
  ⟨rfl, rfl, ready_transfer _ rfl _ (by decide +kernel) _ _, rfl, ready_transfer _ (by decide +kernel) _ (by decide +kernel) _ _,
    by decide +kernel, by decide +kernel⟩

theorem witness_LoadLockedStoreConditional_refused :
    ({ (at5 7 [(2, 20)]) with maySucceed := false } : State).TransferReady .w 3 (.disp 2 0) ∧
    (({ (at5 7 [(2, 20)]) with maySucceed := false } : State).load true .w 3 (.disp 2 0)).maySucceed = false :=
  ⟨ready_transfer _ rfl _ (by decide +kernel) _ _, by decide +kernel⟩

theorem witness_DataBusError : ({ locked with dataFault := true } : State).TransferReady .w 3 (.disp 2 0) ∧
    ({ locked with dataFault := true } : State).abandoned = false ∧
    ({ locked with dataFault := true } : State).physRange .read 20 4 = none ∧
    ({ locked with dataFault := true } : State).physRange .write 20 4 = none ∧
    ({ locked with dataFault := true } : State).effective .w (.disp 2 0) = 20 ∧
    (∃ r, ({ locked with dataFault := true } : State).resv = some r ∧ r.addr = 20 ∧ r.bytes = 4) ∧
    ({ locked with dataFault := true } : State).maySucceed = true ∧ locked.scr.getLsbD 2 = false ∧
    (armed locked).scr.getLsbD 2 = true ∧ (armed locked).exm.getLsbD 21 = false :=
  ⟨ready_transfer _ rfl _ (by decide +kernel) _ _, rfl, by decide +kernel, by decide +kernel, by decide +kernel,
    ⟨_, rfl, rfl, rfl⟩, rfl, by decide +kernel, by decide +kernel, by decide +kernel⟩

theorem witness_RegisterTransfersComplete : MMode.d.width ≤ (onConfig State.reset withFiles).cfg.maxXfer.width ∧
    (63 : RegNum).toNat < (onConfig State.reset withFiles).cfg.ngpr ∧ (26 : RegNum).toNat < 27 ∧
    (onConfig State.reset withFiles).cfg.dsp = some ⟨2, .w⟩ ∧ (1 : RegNum).toNat < (⟨2, .w⟩ : DspFile).count ∧
    (onConfig State.reset withFiles).cfg.fpr = some ⟨2, 80⟩ ∧ (1 : RegNum).toNat < (⟨2, 80⟩ : FprFile).count := by decide +kernel

/-- A user-mode write that touches slot 19 traps; one to slot 20 does not. -/
theorem witness_SpecialRegisterTransferOutcome_user : MMode.w.width ≤ State.reset.cfg.maxXfer.width ∧
    (3 : RegNum).toNat < State.reset.cfg.ngpr ∧ ({ State.reset with scr := 0 } : State).scr.getLsbD 0 = false ∧
    (∃ j, j < max 1 (MMode.w.width / 32) ∧ 19 = ((19 : RegNum).toNat + j) % 27) ∧
    ¬(∃ k, k < 20 ∧ ∃ j, j < max 1 (MMode.w.width / 32) ∧ k = ((20 : RegNum).toNat + j) % 27) := by
  refine ⟨by decide +kernel, by decide +kernel, by decide +kernel, ⟨0, by decide +kernel⟩, ?_⟩
  rintro ⟨k, hk, j, hj, e⟩
  simp [MMode.width] at hj e
  omega

theorem witness_SpecialRegisterTransferOutcome_system : State.reset.scr.getLsbD 0 = true ∧
    (∃ j, j < max 1 (MMode.d.width / 32) ∧ 0 = ((26 : RegNum).toNat + j) % 27) ∧
    (∃ j, j < max 1 (MMode.b.width / 32) ∧ 1 = ((1 : RegNum).toNat + j) % 27) ∧
    (∃ j, j < max 1 (MMode.w.width / 32) ∧ 13 = ((13 : RegNum).toNat + j) % 27) ∧
    (∃ j, j < max 1 (MMode.d.width / 32) ∧ 14 = ((13 : RegNum).toNat + j) % 27) :=
  ⟨by decide +kernel, ⟨1, by decide +kernel⟩, ⟨0, by decide +kernel⟩, ⟨0, by decide +kernel⟩, ⟨1, by decide +kernel⟩⟩

theorem witness_SpecialRegisterTransferOutcome_bank :
    (∃ j, j < max 1 (MMode.w.width / 32) ∧ 15 = ((15 : RegNum).toNat + j) % 27) ∧
    ((at5 0 [(3, 0x11)]).writeSpc 15 ((at5 0 [(3, 0x11)]).readGpr 3 32)).scr.extractLsb' 4 4 ≠
      (at5 0 [(3, 0x11)]).scr.extractLsb' 4 4 ∧
    (at5 0 [(3, 0x11)]).cfg.nbanks ≤
      (((at5 0 [(3, 0x11)]).writeSpc 15 ((at5 0 [(3, 0x11)]).readGpr 3 32)).scr.extractLsb' 4 4).toNat :=
  ⟨⟨0, by decide +kernel⟩, by decide +kernel, by decide +kernel⟩

/-! ### Traps and frames -/

theorem witness_ReturnTraps : State.reset.cfg.has .rete = true ∧ State.reset.cfg.has .retn = true ∧
    ({ State.reset with scr := 0 } : State).scr.getLsbD 0 = false ∧ State.reset.scr.getLsbD 0 = true ∧
    (0x11 : Word).extractLsb' 4 4 ≠ State.reset.scr.extractLsb' 4 4 ∧
    State.reset.cfg.nbanks ≤ ((0x11 : Word).extractLsb' 4 4).toNat := by decide +kernel

/-- A small implementation: no ADD and no BZ, no MUL, no DIV, no FPU, transfers of at most 16 bits. -/
def bare (c : Config) : Config :=
  { c with absent := [.add, .bz], hasMul := false, hasDiv := false, fpu := .none, maxXfer := .h }

theorem witness_UnimplementedInstructionTraps : (onConfig State.reset bare).cfg.valid = true ∧
    (∀ i ∈ [Instr.addI .w false 3 1, .mulR .w true 3 2, .madI .s4 true 3 2 1, .fadd 3 2, .fext .w 3, .ff2i .b true 3,
        .branchO .z .b true true 2 5, .movLoadDisp .w 3 2 5, .movImm .d false 3 0],
      Instr.provided (onConfig State.reset bare).cfg i = false) ∧
    Instr.isAlu (.addI .w false 3 1) = true ∧ Instr.isAlu (.movImm .d false 3 0) = false ∧
    (onConfig State.reset bare).potent 0x20 = false ∧ (armed (onConfig State.reset bare)).potent 0x20 = true := by decide +kernel

/-- Eight registers in one bank. -/
def eight : State := onConfig State.reset fun c => { c with ngpr := 8 }

/-- A field of each kind that names the first register beyond its file: GPRs, special registers, files of the
implementation, and a file that is absent. -/
theorem witness_UnimplementedRegisterTraps : eight.cfg.valid = true ∧
    (∀ i ∈ [Instr.addI .w false 8 1, .mulR .w true 3 8, .madR .w true 3 2 8, .fadd 3 8, .fmad 3 2 8, .fabs 8,
        .branchR .no .w false true 2 8, .branchO .no .w false true 8 0, .jmpR true false 8, .waitR 8, .reteR false 8,
        .movLoadIdx .w 3 7 8, .movRegReg .w 8 3, .movRegSpc .w 3 27, .movSpcReg .w 27 3, .movRegDsp .w 3 0,
        .movFprReg .w 0 3, .movImm .w true 8 0],
      Instr.provided eight.cfg i = true ∧ Instr.registersExist eight.cfg i = false) ∧
    (∀ i ∈ [Instr.fadd 1 2, .ff2i .w true 2, .movRegDsp .w 3 2, .movFprReg .w 2 3],
      Instr.provided (onConfig eight withFiles).cfg i = true ∧ Instr.registersExist (onConfig eight withFiles).cfg i = false) := by
  decide +kernel

theorem witness_AluFrame : Instr.isAlu (.divI .w false 3 2) = true ∧
    gives (.divI .w false 3 2) (at5 0 [(3, 7)]) (fun _ => true) = true ∧
    (encodeFields (.divI .w false 3 2)).b24 = false ∧ Instr.isAlu (.fadd 3 2) = true := by decide +kernel

theorem witness_ControlFrame : Instr.isControl (.jmpO true true 5) = true ∧
    gives (.jmpO true true 5) (at5 0 []) (fun _ => true) = true ∧ (encodeFields (.jmpO true true 5)).aux ≠ 13 ∧
    Instr.isWait (.jmpO true true 5) = false ∧ Instr.isControl (.retn true) = true := by decide +kernel

theorem witness_TransferFrame : Instr.isTransfer (.movRegReg .w 3 2) = true ∧
    gives (.movRegReg .w 3 2) (at5 0 []) (fun _ => true) = true ∧
    (∀ m d r, Instr.movRegReg .w 3 2 ≠ .movSpcReg m d r) ∧
    (∀ atomic m d x, Instr.movRegReg .w 3 2 ≠ .store atomic m d x) := by
  refine ⟨rfl, by decide +kernel, fun _ _ _ h => by simp at h, fun atomic m d x => ?_⟩
  cases atomic <;> rcases x with _ | ⟨_, u⟩ | ⟨_, _, u⟩ <;> (try cases u) <;> simp [Instr.store]

/-- A load, a store, and the transfers of registers give a next state. -/
theorem witness_TransferFrame_forms : ∀ i ∈ [Instr.load false .w 3 (.disp 2 0), .store false .w 3 (.disp 2 0),
      .store true .w 3 (.reg 2 .postInc), .movSpcReg .w 20 3, .movRegSpc .w 3 20, .movRegDsp .w 3 1, .movRegFpr .w 3 1,
      .movImm .w true 3 5, .movDspReg .w 1 3, .movFprReg .w 1 3],
    Instr.isTransfer i = true ∧ gives i (withFilesAt 0) (fun t => t.exc == 0) = true := by decide +kernel

end Sys2Proof.Tests
end

/-! PROOFS of the statements about the special registers (10_state.md R36, R37, R47, R451): the bits of `setBit`, EXM as
the two slots of the special register file, and the potency of one exception. -/
namespace Sys2Proof.Machine

/-! ## One bit of a word -/

theorem getLsbD_one_shiftLeft {w : Nat} (i n : Nat) : (1#w <<< i).getLsbD n = (decide (i < w) && decide (i = n)) :=
  BitVec.getLsbD_twoPow i n

/-- Setting bit `i` changes that bit and no other one. -/
theorem getLsbD_setBit {w : Nat} (x : BitVec w) (i : Nat) (b : Bool) (n : Nat) :
    (setBit x i b).getLsbD n = if n = i then decide (n < w) && b else x.getLsbD n := by
  have hx : w ≤ n → x.getLsbD n = false := x.getLsbD_of_ge n
  cases b
  case false =>
    change (x &&& ~~~(1#w <<< i)).getLsbD n = _
    rw [BitVec.getLsbD_and, BitVec.getLsbD_not, getLsbD_one_shiftLeft]
    grind
  case true =>
    change (x ||| 1#w <<< i).getLsbD n = _
    rw [BitVec.getLsbD_or, getLsbD_one_shiftLeft]
    grind

/-! ## EXM and the special register file -/

/-- A 64-bit special register is its two slots, the lower one least significant (R36). -/
theorem readFile_slot_pair (file : List Reg) {i : Nat} (hi : i + 1 < numSpc) :
    readFile file 0 numSpc 32 64 i =
      (file.getD (i + 1) 0).setWidth 32 ++ (file.getD i 0).setWidth 32 := by
  apply BitVec.eq_of_getLsbD_eq
  intro b hb
  rw [readFile_bit _ _ _ (by decide), BitVec.getLsbD_append, decide_eq_true hb, Bool.true_and, Nat.zero_add]
  by_cases h : b < 32
  · rw [if_pos h, Nat.div_eq_of_lt h, Nat.mod_eq_of_lt h, Nat.add_zero, Nat.mod_eq_of_lt (by omega),
      BitVec.getLsbD_setWidth, decide_eq_true h, Bool.true_and]
  · rw [if_neg h, show b / 32 = 1 by omega, show b % 32 = b - 32 by omega, Nat.mod_eq_of_lt hi,
      BitVec.getLsbD_setWidth, decide_eq_true (by omega : b - 32 < 32), Bool.true_and]

@[simp] theorem State.spcFile_length (s : State) : s.spcFile.length = numSpc := rfl

/-- EXM is the 64-bit register at slot 6 of the file, its bit 0 cleared (R37, R47). -/
theorem State.withSpcFile_exm (s : State) (file : List Reg) :
    (s.withSpcFile file).exm = setBit (readFile file 0 numSpc 32 64 6) 0 false := by
  rw [readFile_slot_pair file (by decide)]
  rfl

theorem State.writeSpc_exm_bit_zero {w : Nat} (s : State) (i : RegNum) (v : BitVec w) :
    (s.writeSpc i v).exm.getLsbD 0 = false := by
  rw [State.writeSpc, State.withSpcFile_exm, getLsbD_setBit, if_pos rfl, Bool.and_false]

/-- A 64-bit write to EXM stores the value with bit 0 cleared. -/
theorem State.writeSpc_exm (s : State) (v : BitVec 64) : (s.writeSpc 6 v).exm = setBit v 0 false := by
  rw [State.writeSpc, State.withSpcFile_exm]
  exact congrArg (setBit · 0 false)
    (readFile_writeFile_same v (by decide) (by decide) (by decide) (by simp) (by decide))

/-! ## One exception -/

/-- An exception is potent exactly where exceptions are enabled and its own mask bit is clear (R47, R451). -/
theorem State.potent_excBit (s : State) {n : Nat} (hn : n < 64) :
    s.potent (excBit n) = (s.scr.getLsbD 2 && !s.exm.getLsbD n) := by
  have hbit (k : Nat) : (excBit n).getLsbD k = true ↔ n = k := by
    rw [excBit, getLsbD_one_shiftLeft, decide_eq_true hn, Bool.true_and, decide_eq_true_iff]
  rw [Bool.eq_iff_iff, State.potent_iff, Bool.and_eq_true, Bool.not_eq_true']
  refine and_congr_right fun _ => ⟨?_, fun hm => ⟨n, hn, (hbit n).2 rfl, hm⟩⟩
  rintro ⟨k, -, hkn, hm⟩
  exact (hbit k).1 hkn ▸ hm

theorem State.systemReset_exm (s : State) : s.systemReset.exm = 0 := rfl

/-- Settles O8: EXM after a write is slot 6 of the file with bit 0 cleared, and one exception's potency reads one mask
bit. -/
theorem exceptionMasks : Obligations.ExceptionMasks := by
  intro s
  refine ⟨fun i m v => s.writeSpc_exm_bit_zero i v, fun v n hn _ => ?_, fun n _ hn => ?_, s.systemReset_exm, rfl⟩
  · rw [State.writeSpc_exm, getLsbD_setBit, if_neg (by omega)]
  · have hp : s.potent (1#64 <<< n) = (s.scr.getLsbD 2 && !s.exm.getLsbD n) := s.potent_excBit hn
    exact ⟨fun hm => by simp [hp, hm], fun hm => by simp [hp, hm]⟩

end Sys2Proof.Machine

/-! PROOFS of the statement about the immediates (30_encoding.md R145, R149, R150): the immediates of an encoded
instruction as fields of its word, and the extension of an immediate to the width of the mode. -/
namespace Sys2Proof

/-! ## The immediate fields of a word -/

/-- The fields of an encoded instruction are those its row of the tables gives. -/
@[simp] theorem Fields.ofWord_encode (i : Instr) : Fields.ofWord (encode i) = encodeFields i := Fields.ofWord_toWord _

/-- AUXCODE and the three fields below it are adjacent, so IMMEDIATE18 is one stretch of the word (R145). -/
theorem Fields.imm18_ofWord (w : Word) : (Fields.ofWord w).imm18 = w.extractLsb' 0 18 := by
  rw [← imm18_pieces (w.extractLsb' 0 18)]
  simp [Fields.imm18, Fields.ofWord, BitVec.extractLsb'_extractLsb'_of_le]

/-- I8HI and I8LO are apart in the word (R150). -/
theorem Fields.imm8_ofWord (w : Word) : (Fields.ofWord w).imm8 = w.extractLsb' 12 2 ++ w.extractLsb' 0 6 := rfl

theorem imm18_encodeFields_movImm (m : MMode) (u : Bool) (d : RegNum) (x : BitVec 18) :
    (encodeFields (.movImm m u d x)).imm18 = x := imm18_pieces x

theorem imm8_encodeFields_madI (m : MMode) (u : Bool) (d r : RegNum) (x : BitVec 8) :
    (encodeFields (.madI m u d r x)).imm8 = x := imm8_pieces x

theorem imm8_encodeFields_msuI (m : MMode) (u : Bool) (d r : RegNum) (x : BitVec 8) :
    (encodeFields (.msuI m u d r x)).imm8 = x := imm8_pieces x

end Sys2Proof

namespace Sys2Proof.Machine

/-! ## The extension of an immediate -/

/-- Zero extension keeps the unsigned value. -/
theorem toNat_extend_true {k w : Nat} (x : BitVec k) (h : k ≤ w) : (extend true w x).toNat = x.toNat :=
  BitVec.toNat_setWidth_of_le h

/-- Sign extension keeps the two's complement value. -/
theorem toInt_extend_false {k w : Nat} (x : BitVec k) (h : k ≤ w) : (extend false w x).toInt = x.toInt :=
  BitVec.toInt_signExtend_of_le h

/-- In a width no larger than its own an immediate is truncated, whatever U is. -/
theorem extend_eq_setWidth_of_le {k w : Nat} (u : Bool) (x : BitVec k) (h : w ≤ k) :
    extend u w x = x.setWidth w := by
  cases u
  case true => rfl
  case false => exact x.signExtend_eq_setWidth_of_le h

/-- Settles O5: the immediates are read back from the fields of the encoded word, and `extend` is `setWidth` or
`signExtend`, which agree where they truncate. -/
theorem immediateExtension : Obligations.ImmediateExtension := by
  refine ⟨fun m u d x => ?imm18, fun m u d r x i hi => ?imm8, fun k w x _ => ⟨fun h => ?widen, fun h u => ?narrow⟩⟩
  case imm18 => rw [← Fields.imm18_ofWord, Fields.ofWord_encode, imm18_encodeFields_movImm]
  case imm8 =>
    rw [← Fields.imm8_ofWord, Fields.ofWord_encode]
    simp only [List.mem_cons, List.not_mem_nil, or_false] at hi
    obtain rfl | rfl := hi
    · exact imm8_encodeFields_madI m u d r x
    · exact imm8_encodeFields_msuI m u d r x
  case widen => exact ⟨toNat_extend_true x h, toInt_extend_false x h⟩
  case narrow => rw [extend_eq_setWidth_of_le u x h, BitVec.toNat_setWidth]

end Sys2Proof.Machine

/-! PROOFS of the statement about bitwise logic (43_logic.md R270 to R274): AUXCODE and F of an encoded instruction, the
two forms of a two-operand instruction, and the operation that AND, NAND, OR and XOR share. -/
namespace Sys2Proof

/-! ## AUXCODE and F of a word -/

/-- AUXCODE is bits 17:14 of the word (R140, R148). -/
theorem extractLsb'_encode_auxcode (i : Instr) : (encode i).extractLsb' 14 4 = (encodeFields i).aux :=
  congrArg Fields.aux (Fields.ofWord_encode i)

/-- F of an arithmetic/logic word is bit 24 (R148). -/
theorem getLsbD_encode_b24 (i : Instr) : (encode i).getLsbD 24 = (encodeFields i).b24 :=
  congrArg Fields.b24 (Fields.ofWord_encode i)

end Sys2Proof

namespace Sys2Proof.Machine

/-! ## Two-operand instructions -/

/-- Whatever both forms of a two-operand instruction do with their existing operands, the instruction does (R230). -/
theorem State.SecondOperand.exec_eq {s t : State} {w : Nat} {u : Bool} {regForm : RegNum → Instr}
    {immForm : BitVec 14 → Instr} {i : Instr} {b : BitVec w} {d : RegNum} {op : Src → State}
    (h : s.SecondOperand w u regForm immForm i b) (hd : d.toNat < s.cfg.ngpr)
    (hreg : ∀ r, exec (regForm r) s = .next (op (.reg r))) (himm : ∀ x, exec (immForm x) s = .next (op (.imm u x)))
    (hop : ∀ src, s.gprsExist (d :: Src.regs src) = true → s.operand w src = b → op src = t) :
    exec i s = .next t := by
  obtain ⟨src, hb, hsrc, ⟨r, rfl, rfl⟩ | ⟨x, rfl, rfl⟩⟩ := State.secondOperand_cases hd h
  case inl => rw [hreg, hop _ hsrc hb]
  case inr => rw [himm, hop _ hsrc hb]

/-- A logic operation that passes its checks writes its result back with the flags of R44, the operands compared
unsigned (R270). -/
theorem State.logicOp_pass {s : State} {mn : Mnemonic} {m : MMode} {d : RegNum} {src : Src}
    (f : BitVec m.width → BitVec m.width → BitVec m.width) (himpl : s.cfg.implements mn m = true)
    (hsrc : s.gprsExist (d :: Src.regs src) = true) :
    s.logicOp mn m d src f =
      let a := s.readGpr d m.width
      let b := s.operand m.width src
      s.writtenBack d (f a b) (ruleFlags false a b (f a b)) := by
  rw [State.logicOp, State.integerOp_pass _ himpl hsrc, intFlags_eq_ruleFlags]
  rfl

/-- Both forms of an instruction that is a logic operation write the same result back. -/
theorem State.SecondOperand.exec_logicOp {s : State} {mn : Mnemonic} {m : MMode} {u : Bool}
    {regForm : RegNum → Instr} {immForm : BitVec 14 → Instr} {i : Instr} {b : BitVec m.width} {d : RegNum}
    {f : BitVec m.width → BitVec m.width → BitVec m.width}
    (h : s.SecondOperand m.width u regForm immForm i b) (hd : d.toNat < s.cfg.ngpr)
    (himpl : s.cfg.implements mn m = true)
    (hreg : ∀ r, exec (regForm r) s = .next (s.logicOp mn m d (.reg r) f))
    (himm : ∀ x, exec (immForm x) s = .next (s.logicOp mn m d (.imm u x) f)) :
    let a := s.readGpr d m.width
    exec i s = .next (s.writtenBack d (f a b) (ruleFlags false a b (f a b))) :=
  h.exec_eq hd hreg himm fun _ hsrc hb => hb ▸ State.logicOp_pass f himpl hsrc

/-- Settles O29: each of the four is one logic operation, whose bits are those of the word operator. -/
theorem logicResult : Obligations.LogicResult := by
  intro s m u d i b hd
  refine ⟨fun r x => ?codes, fun himpl h => ?and, fun himpl h => ?nand, fun himpl h => ?or, fun himpl h => ?xor⟩
  case codes =>
    simp only [extractLsb'_encode_auxcode, getLsbD_encode_b24]
    exact ⟨⟨rfl, rfl⟩, ⟨rfl, rfl⟩, ⟨rfl, rfl⟩, ⟨rfl, rfl⟩, ⟨rfl, rfl⟩, ⟨rfl, rfl⟩, ⟨rfl, rfl⟩, ⟨rfl, rfl⟩⟩
  case and =>
    exact ⟨_, fun k _ => BitVec.getLsbD_and, h.exec_logicOp hd himpl (fun _ => rfl) (fun _ => rfl)⟩
  case nand =>
    refine ⟨_, fun k hk => ?_, h.exec_logicOp hd himpl (fun _ => rfl) (fun _ => rfl)⟩
    rw [BitVec.getLsbD_not, BitVec.getLsbD_and, decide_eq_true hk, Bool.true_and]
  case or =>
    exact ⟨_, fun k _ => BitVec.getLsbD_or, h.exec_logicOp hd himpl (fun _ => rfl) (fun _ => rfl)⟩
  case xor =>
    exact ⟨_, fun k _ => BitVec.getLsbD_xor, h.exec_logicOp hd himpl (fun _ => rfl) (fun _ => rfl)⟩

end Sys2Proof.Machine

/-! PROOFS of the statement about the branch conditions (47_program_transfer.md R372 to R384): AUXCODE of a branch, the
condition a branch tests, and where a branch goes. -/
namespace Sys2Proof

/-! ## AUXCODE of a branch -/

/-- AUXCODE of a branch, register form, is that of its condition (R155). -/
theorem aux_encodeFields_branchR (c : Cond) (m : MMode) (a p : Bool) (arg loc : RegNum) :
    (encodeFields (.branchR c m a p arg loc)).aux = Cond.code c := by cases c <;> rfl

/-- AUXCODE of a branch, offset form, is that of its condition (R155). -/
theorem aux_encodeFields_branchO (c : Cond) (m : MMode) (a p : Bool) (arg : RegNum) (off : BitVec 14) :
    (encodeFields (.branchO c m a p arg off)).aux = Cond.code c := by cases c <;> rfl

end Sys2Proof

namespace Sys2Proof.Machine

/-! ## The condition of a branch -/

theorem beq_zero_iff_toNat {w : Nat} (x : BitVec w) : (x == 0) = true ↔ x.toNat = 0 := by
  rw [beq_iff_eq, BitVec.toNat_eq, BitVec.ofNat_eq_ofNat, BitVec.toNat_zero]

theorem beq_allOnes_iff_toNat {w : Nat} (x : BitVec w) : (x == BitVec.allOnes w) = true ↔ x.toNat = 2 ^ w - 1 := by
  rw [beq_iff_eq, BitVec.toNat_eq, BitVec.toNat_allOnes]

/-- The test of a branch is its condition in the table of R372. -/
theorem Cond.taken_iff_met {w : Nat} (c : Cond) (x : BitVec w) : Cond.taken c x = true ↔ Cond.Met c x := by
  have hzero := beq_zero_iff_toNat x
  have hones := beq_allOnes_iff_toNat x
  have hmsb := x.msb_eq_getLsbD_last
  cases c
  case z => exact hzero
  case nz => exact bne_iff_ne.trans (beq_iff_eq.symm.trans hzero).not
  case m => exact Bool.eq_iff_iff.mp hmsb
  case mz => simp only [Cond.taken, Cond.Met, Bool.or_eq_true, hzero, hmsb]
  case nm => simp only [Cond.taken, Cond.Met, Bool.not_eq_true', Bool.not_eq_true, hmsb]
  case nmo => simp only [Cond.taken, Cond.Met, Bool.or_eq_true, Bool.not_eq_true', Bool.not_eq_true, hones, hmsb]
  case l => exact Iff.rfl
  case lz => simp only [Cond.taken, Cond.Met, Bool.or_eq_true, hzero]
  case nl => simp only [Cond.taken, Cond.Met, Bool.not_eq_true', Bool.not_eq_true]
  case nlo => simp only [Cond.taken, Cond.Met, Bool.or_eq_true, Bool.not_eq_true', Bool.not_eq_true, hones]
  case o => exact hones
  case no => exact bne_iff_ne.trans (beq_iff_eq.symm.trans hones).not

/-! ## Where a branch goes -/

/-- A value below `2^ICW` is kept by IC (R31). -/
theorem State.icWrap_of_lt {s : State} {x : BitVec 64} (h : x.toNat < 2 ^ s.cfg.icw) : s.icWrap x = x := by
  apply BitVec.eq_of_toNat_eq
  rw [State.icWrap, BitVec.toNat_setWidth, BitVec.toNat_setWidth, Nat.mod_eq_of_lt h, Nat.mod_eq_of_lt x.isLt]

/-- Where `IC + 1` is below `2^ICW` the next instruction is at it. -/
theorem State.advance_ic_of_lt {s : State} (h : s.ic.toNat + 1 < 2 ^ s.cfg.icw) : s.advance.ic = s.ic + 1 :=
  State.icWrap_of_lt (by rw [BitVec.toNat_add]; exact (Nat.mod_le _ _).trans_lt h)

theorem State.branchTo_of_met {s : State} {c : Cond} {m : MMode} {arg : RegNum} (a p : Bool) (value : BitVec 64)
    (h : Cond.Met c (s.readGpr arg m.width)) : s.branchTo c m a p arg value = s.transfer a p value :=
  if_pos ((Cond.taken_iff_met c _).mpr h)

theorem State.branchTo_of_not_met {s : State} {c : Cond} {m : MMode} {arg : RegNum} (a p : Bool) (value : BitVec 64)
    (h : ¬Cond.Met c (s.readGpr arg m.width)) : s.branchTo c m a p arg value = s.advance :=
  if_neg fun ht => h ((Cond.taken_iff_met c _).mp ht)

/-- A jump to a register that passes its checks (R371). -/
theorem exec_jmpR_pass {s : State} {loc : RegNum} (a p : Bool) (hjmp : s.cfg.has .jmp = true)
    (hloc : loc.toNat < s.cfg.ngpr) : exec (.jmpR a p loc) s = .next (s.transfer a p (s.locationValue loc)) :=
  congrArg _ (State.checkOther_pass hjmp ((s.gprsExist_iff [loc]).mpr (by simpa using hloc)) _)

/-- A jump to OFFSET20 that passes its checks (R371). -/
theorem exec_jmpO_pass {s : State} (a p : Bool) (off : BitVec 20) (hjmp : s.cfg.has .jmp = true) :
    exec (.jmpO a p off) s = .next (s.transfer a p (off.signExtend 64)) :=
  congrArg _ (State.checkOther_pass hjmp rfl _)

theorem exec_branchR (s : State) (c : Cond) (m : MMode) (a p : Bool) (arg loc : RegNum) :
    exec (.branchR c m a p arg loc) s = .next (s.branchReg (Cond.mnemonic c) c m a p arg loc) := by cases c <;> rfl

theorem exec_branchO (s : State) (c : Cond) (m : MMode) (a p : Bool) (arg : RegNum) (off : BitVec 14) :
    exec (.branchO c m a p arg off) s = .next (s.branchOff (Cond.mnemonic c) c m a p arg off) := by cases c <;> rfl

/-- A branch to a register that passes its checks (R372). -/
theorem exec_branchR_pass {s : State} {c : Cond} {m : MMode} {arg loc : RegNum} (a p : Bool)
    (himpl : s.cfg.implements (Cond.mnemonic c) m = true) (harg : arg.toNat < s.cfg.ngpr)
    (hloc : loc.toNat < s.cfg.ngpr) :
    exec (.branchR c m a p arg loc) s = .next (s.branchTo c m a p arg (s.locationValue loc)) := by
  rw [exec_branchR, State.branchReg, State.checkOther_pass himpl ((s.gprsExist_iff _).mpr (by simp [harg, hloc]))]

/-- A branch to OFFSET14 that passes its checks (R372). -/
theorem exec_branchO_pass {s : State} {c : Cond} {m : MMode} {arg : RegNum} (a p : Bool) (off : BitVec 14)
    (himpl : s.cfg.implements (Cond.mnemonic c) m = true) (harg : arg.toNat < s.cfg.ngpr) :
    exec (.branchO c m a p arg off) s = .next (s.branchTo c m a p arg (off.signExtend 64)) := by
  rw [exec_branchO, State.branchOff, State.checkOther_pass himpl ((s.gprsExist_iff _).mpr (by simp [harg]))]

/-- OFFSET14 is the same signed value as an OFFSET20 (R154, R370). -/
theorem signExtend_off20_off14 (off : BitVec 14) : (off.signExtend 20).signExtend 64 = off.signExtend 64 := by
  apply BitVec.eq_of_toInt_eq
  rw [BitVec.toInt_signExtend_of_le (by decide), BitVec.toInt_signExtend_of_le (by decide),
    BitVec.toInt_signExtend_of_le (by decide)]

/-- A branch and a jump with the same A, P and value: the branch goes where the jump goes, or on (R372). -/
theorem branch_goes_or_advances {s : State} {c : Cond} {m : MMode} {a p : Bool} {arg : RegNum} {value : BitVec 64}
    {i jump : Instr} (hi : exec i s = .next (s.branchTo c m a p arg value))
    (hjump : exec jump s = .next (s.transfer a p value)) :
    (Cond.Met c (s.readGpr arg m.width) → exec i s = exec jump s) ∧
    (¬Cond.Met c (s.readGpr arg m.width) → ∃ t, exec i s = .next t ∧ t = { s with ic := t.ic } ∧
      (s.ic.toNat + 1 < 2 ^ s.cfg.icw → t.ic = s.ic + 1)) := by
  constructor
  case left =>
    intro hmet
    rw [hi, hjump, State.branchTo_of_met a p value hmet]
  case right =>
    intro hmet
    rw [hi, State.branchTo_of_not_met a p value hmet]
    exact ⟨s.advance, rfl, rfl, State.advance_ic_of_lt⟩

/-- Settles O45: the code is a field of the encoded word, and a branch that passes its checks transfers as the jump with
the same value does, or advances. -/
theorem branchConditions : Obligations.BranchConditions := by
  intro s c m a p arg loc off code taken goes
  have hcode : Cond.code c = code := by cases c <;> rfl
  refine ⟨⟨?codeO, fun himpl hjmp harg _ => ?goesO⟩, ⟨?codeR, fun himpl hjmp harg hloc => ?goesR⟩⟩
  case codeO => rw [extractLsb'_encode_auxcode, aux_encodeFields_branchO, hcode]
  case codeR => rw [extractLsb'_encode_auxcode, aux_encodeFields_branchR, hcode]
  case goesO =>
    have hjump := exec_jmpO_pass a p (off.signExtend 20) hjmp
    rw [signExtend_off20_off14] at hjump
    exact branch_goes_or_advances (exec_branchO_pass a p off himpl harg) hjump
  case goesR => exact branch_goes_or_advances (exec_branchR_pass a p himpl harg hloc) (exec_jmpR_pass a p hjmp hloc)

end Sys2Proof.Machine

/-! PROOFS of the statements about encoding and decoding (30_encoding.md): the forms of the transfer and control
instructions, the words that decode to none, and the bits a form does not use. -/
namespace Sys2Proof

/-! ## Forms of instructions -/

/-- The forms of a data transfer instruction: a load or a store of an addressing form (R143), an inter-register transfer
(R147), the load immediate (R145). -/
inductive Instr.TransferForm : Instr → Prop
  | load (atomic : Bool) (m : MMode) (d : RegNum) (x : Addr) : TransferForm (.load atomic m d x)
  | store (atomic : Bool) (m : MMode) (d : RegNum) (x : Addr) : TransferForm (.store atomic m d x)
  | regReg (m : MMode) (d r : RegNum) : TransferForm (.movRegReg m d r)
  | regSpc (m : MMode) (d r : RegNum) : TransferForm (.movRegSpc m d r)
  | spcReg (m : MMode) (d r : RegNum) : TransferForm (.movSpcReg m d r)
  | regDsp (m : MMode) (d r : RegNum) : TransferForm (.movRegDsp m d r)
  | dspReg (m : MMode) (d r : RegNum) : TransferForm (.movDspReg m d r)
  | regFpr (m : MMode) (d r : RegNum) : TransferForm (.movRegFpr m d r)
  | fprReg (m : MMode) (d r : RegNum) : TransferForm (.movFprReg m d r)
  | imm (m : MMode) (u : Bool) (d : RegNum) (x : BitVec 18) : TransferForm (.movImm m u d x)

/-- The forms of a control instruction (R155). -/
inductive Instr.ControlForm : Instr → Prop
  | jmpR (a p : Bool) (loc : RegNum) : ControlForm (.jmpR a p loc)
  | jmpO (a p : Bool) (off : BitVec 20) : ControlForm (.jmpO a p off)
  | branchR (c : Cond) (m : MMode) (a p : Bool) (arg loc : RegNum) : ControlForm (.branchR c m a p arg loc)
  | branchO (c : Cond) (m : MMode) (a p : Bool) (arg : RegNum) (off : BitVec 14) : ControlForm (.branchO c m a p arg off)
  | ret (p : Bool) : ControlForm (.ret p)
  | reti (p : Bool) : ControlForm (.reti p)
  | rete (p : Bool) : ControlForm (.rete p)
  | reteR (p : Bool) (loc : RegNum) : ControlForm (.reteR p loc)
  | reteO (p : Bool) (off : BitVec 20) : ControlForm (.reteO p off)
  | retn (p : Bool) : ControlForm (.retn p)
  | retnR (p : Bool) (loc : RegNum) : ControlForm (.retnR p loc)
  | retnO (p : Bool) (off : BitVec 20) : ControlForm (.retnO p off)
  | waitR (loc : RegNum) : ControlForm (.waitR loc)
  | waitO (off : BitVec 20) : ControlForm (.waitO off)

/-- Every instruction is an arithmetic/logic one, or has a transfer or a control form. -/
theorem Instr.form_cases (i : Instr) : Machine.Instr.isAlu i = true ∨ i.TransferForm ∨ i.ControlForm := by
  cases i
  case jmpR a p loc => exact .inr (.inr (.jmpR a p loc))
  case jmpO a p off => exact .inr (.inr (.jmpO a p off))
  case bzR m a p arg loc => exact .inr (.inr (.branchR .z m a p arg loc))
  case bnzR m a p arg loc => exact .inr (.inr (.branchR .nz m a p arg loc))
  case bmR m a p arg loc => exact .inr (.inr (.branchR .m m a p arg loc))
  case bmzR m a p arg loc => exact .inr (.inr (.branchR .mz m a p arg loc))
  case bnmR m a p arg loc => exact .inr (.inr (.branchR .nm m a p arg loc))
  case bnmoR m a p arg loc => exact .inr (.inr (.branchR .nmo m a p arg loc))
  case blR m a p arg loc => exact .inr (.inr (.branchR .l m a p arg loc))
  case blzR m a p arg loc => exact .inr (.inr (.branchR .lz m a p arg loc))
  case bnlR m a p arg loc => exact .inr (.inr (.branchR .nl m a p arg loc))
  case bnloR m a p arg loc => exact .inr (.inr (.branchR .nlo m a p arg loc))
  case boR m a p arg loc => exact .inr (.inr (.branchR .o m a p arg loc))
  case bnoR m a p arg loc => exact .inr (.inr (.branchR .no m a p arg loc))
  case bzO m a p arg off => exact .inr (.inr (.branchO .z m a p arg off))
  case bnzO m a p arg off => exact .inr (.inr (.branchO .nz m a p arg off))
  case bmO m a p arg off => exact .inr (.inr (.branchO .m m a p arg off))
  case bmzO m a p arg off => exact .inr (.inr (.branchO .mz m a p arg off))
  case bnmO m a p arg off => exact .inr (.inr (.branchO .nm m a p arg off))
  case bnmoO m a p arg off => exact .inr (.inr (.branchO .nmo m a p arg off))
  case blO m a p arg off => exact .inr (.inr (.branchO .l m a p arg off))
  case blzO m a p arg off => exact .inr (.inr (.branchO .lz m a p arg off))
  case bnlO m a p arg off => exact .inr (.inr (.branchO .nl m a p arg off))
  case bnloO m a p arg off => exact .inr (.inr (.branchO .nlo m a p arg off))
  case boO m a p arg off => exact .inr (.inr (.branchO .o m a p arg off))
  case bnoO m a p arg off => exact .inr (.inr (.branchO .no m a p arg off))
  case ret p => exact .inr (.inr (.ret p))
  case reti p => exact .inr (.inr (.reti p))
  case rete p => exact .inr (.inr (.rete p))
  case reteR p loc => exact .inr (.inr (.reteR p loc))
  case reteO p off => exact .inr (.inr (.reteO p off))
  case retn p => exact .inr (.inr (.retn p))
  case retnR p loc => exact .inr (.inr (.retnR p loc))
  case retnO p off => exact .inr (.inr (.retnO p off))
  case waitR loc => exact .inr (.inr (.waitR loc))
  case waitO off => exact .inr (.inr (.waitO off))
  case movLoadDisp m d base off => exact .inr (.inl (.load false m d (.disp base off)))
  case movLoadReg m d idx => exact .inr (.inl (.load false m d (.reg idx .keep)))
  case movLoadRegPostInc m d idx => exact .inr (.inl (.load false m d (.reg idx .postInc)))
  case movLoadRegPostDec m d idx => exact .inr (.inl (.load false m d (.reg idx .postDec)))
  case movLoadRegPreInc m d idx => exact .inr (.inl (.load false m d (.reg idx .preInc)))
  case movLoadRegPreDec m d idx => exact .inr (.inl (.load false m d (.reg idx .preDec)))
  case movLoadIdx m d base idx => exact .inr (.inl (.load false m d (.indexed base idx .keep)))
  case movLoadIdxPostInc m d base idx => exact .inr (.inl (.load false m d (.indexed base idx .postInc)))
  case movLoadIdxPostDec m d base idx => exact .inr (.inl (.load false m d (.indexed base idx .postDec)))
  case movLoadIdxPreInc m d base idx => exact .inr (.inl (.load false m d (.indexed base idx .preInc)))
  case movLoadIdxPreDec m d base idx => exact .inr (.inl (.load false m d (.indexed base idx .preDec)))
  case movLoadLockedDisp m d base off => exact .inr (.inl (.load true m d (.disp base off)))
  case movLoadLockedReg m d idx => exact .inr (.inl (.load true m d (.reg idx .keep)))
  case movLoadLockedRegPostInc m d idx => exact .inr (.inl (.load true m d (.reg idx .postInc)))
  case movLoadLockedRegPostDec m d idx => exact .inr (.inl (.load true m d (.reg idx .postDec)))
  case movLoadLockedRegPreInc m d idx => exact .inr (.inl (.load true m d (.reg idx .preInc)))
  case movLoadLockedRegPreDec m d idx => exact .inr (.inl (.load true m d (.reg idx .preDec)))
  case movLoadLockedIdx m d base idx => exact .inr (.inl (.load true m d (.indexed base idx .keep)))
  case movLoadLockedIdxPostInc m d base idx => exact .inr (.inl (.load true m d (.indexed base idx .postInc)))
  case movLoadLockedIdxPostDec m d base idx => exact .inr (.inl (.load true m d (.indexed base idx .postDec)))
  case movLoadLockedIdxPreInc m d base idx => exact .inr (.inl (.load true m d (.indexed base idx .preInc)))
  case movLoadLockedIdxPreDec m d base idx => exact .inr (.inl (.load true m d (.indexed base idx .preDec)))
  case movStoreDisp m d base off => exact .inr (.inl (.store false m d (.disp base off)))
  case movStoreReg m d idx => exact .inr (.inl (.store false m d (.reg idx .keep)))
  case movStoreRegPostInc m d idx => exact .inr (.inl (.store false m d (.reg idx .postInc)))
  case movStoreRegPostDec m d idx => exact .inr (.inl (.store false m d (.reg idx .postDec)))
  case movStoreRegPreInc m d idx => exact .inr (.inl (.store false m d (.reg idx .preInc)))
  case movStoreRegPreDec m d idx => exact .inr (.inl (.store false m d (.reg idx .preDec)))
  case movStoreIdx m d base idx => exact .inr (.inl (.store false m d (.indexed base idx .keep)))
  case movStoreIdxPostInc m d base idx => exact .inr (.inl (.store false m d (.indexed base idx .postInc)))
  case movStoreIdxPostDec m d base idx => exact .inr (.inl (.store false m d (.indexed base idx .postDec)))
  case movStoreIdxPreInc m d base idx => exact .inr (.inl (.store false m d (.indexed base idx .preInc)))
  case movStoreIdxPreDec m d base idx => exact .inr (.inl (.store false m d (.indexed base idx .preDec)))
  case movStoreCondDisp m d base off => exact .inr (.inl (.store true m d (.disp base off)))
  case movStoreCondReg m d idx => exact .inr (.inl (.store true m d (.reg idx .keep)))
  case movStoreCondRegPostInc m d idx => exact .inr (.inl (.store true m d (.reg idx .postInc)))
  case movStoreCondRegPostDec m d idx => exact .inr (.inl (.store true m d (.reg idx .postDec)))
  case movStoreCondRegPreInc m d idx => exact .inr (.inl (.store true m d (.reg idx .preInc)))
  case movStoreCondRegPreDec m d idx => exact .inr (.inl (.store true m d (.reg idx .preDec)))
  case movStoreCondIdx m d base idx => exact .inr (.inl (.store true m d (.indexed base idx .keep)))
  case movStoreCondIdxPostInc m d base idx => exact .inr (.inl (.store true m d (.indexed base idx .postInc)))
  case movStoreCondIdxPostDec m d base idx => exact .inr (.inl (.store true m d (.indexed base idx .postDec)))
  case movStoreCondIdxPreInc m d base idx => exact .inr (.inl (.store true m d (.indexed base idx .preInc)))
  case movStoreCondIdxPreDec m d base idx => exact .inr (.inl (.store true m d (.indexed base idx .preDec)))
  case movRegReg m d r => exact .inr (.inl (.regReg m d r))
  case movRegSpc m d r => exact .inr (.inl (.regSpc m d r))
  case movSpcReg m d r => exact .inr (.inl (.spcReg m d r))
  case movRegDsp m d r => exact .inr (.inl (.regDsp m d r))
  case movDspReg m d r => exact .inr (.inl (.dspReg m d r))
  case movRegFpr m d r => exact .inr (.inl (.regFpr m d r))
  case movFprReg m d r => exact .inr (.inl (.fprReg m d r))
  case movImm m u d x => exact .inr (.inl (.imm m u d x))
  all_goals exact .inl rfl

/-! ## Decoding what was encoded -/

/-- The fields of a memory transfer (R143): loads have L = 1, atomic ones U = 1. -/
def memoryFields (l atomic : Bool) (m : MMode) (d : RegNum) (x : Addr) : Fields :=
  match x with
  | .disp base off => dispFields l atomic m d base off
  | .reg idx upd => regFields l atomic m d idx upd
  | .indexed base idx upd => idxFields l atomic m d base idx upd

theorem encodeFields_load (atomic : Bool) (m : MMode) (d : RegNum) (x : Addr) :
    encodeFields (.load atomic m d x) = memoryFields true atomic m d x := by
  obtain ⟨base, off⟩ | ⟨idx, upd⟩ | ⟨base, idx, upd⟩ := x
  · cases atomic <;> rfl
  · cases atomic <;> cases upd <;> rfl
  · cases atomic <;> cases upd <;> rfl

theorem encodeFields_store (atomic : Bool) (m : MMode) (d : RegNum) (x : Addr) :
    encodeFields (.store atomic m d x) = memoryFields false atomic m d x := by
  obtain ⟨base, off⟩ | ⟨idx, upd⟩ | ⟨base, idx, upd⟩ := x
  · cases atomic <;> rfl
  · cases atomic <;> cases upd <;> rfl
  · cases atomic <;> cases upd <;> rfl

/-- A memory transfer is read back from its fields (R143, R144, R146). -/
theorem decodeFields_memoryFields (l atomic : Bool) (m : MMode) (d : RegNum) (x : Addr) :
    decodeFields (memoryFields l atomic m d x) =
      .ok ((if l then Instr.load atomic else Instr.store atomic) m d x) := by
  obtain ⟨base, off⟩ | ⟨idx, upd⟩ | ⟨base, idx, upd⟩ := x
  case disp =>
    have hoff : Addr.disp base (off.extractLsb' 8 4 ++ (off.extractLsb' 6 2 ++ off.extractLsb' 0 6)) = .disp base off :=
      congrArg (Addr.disp base) (off12_pieces off)
    cases l
    case false =>
      simpa [decodeFields, decodeMemory, memoryFields, dispFields, transferFields, Fields.off12] using
        congrArg (Instr.store atomic m d) hoff
    case true =>
      simpa [decodeFields, decodeMemory, memoryFields, dispFields, transferFields, Fields.off12] using
        congrArg (Instr.load atomic m d) hoff
  case reg =>
    cases l <;> cases upd <;>
      simp [decodeFields, decodeMemory, memoryFields, regFields, transferFields, Update.code, Update.ofCode]
  case indexed =>
    cases l <;> cases upd <;>
      simp [decodeFields, decodeMemory, memoryFields, idxFields, transferFields, Update.code, Update.ofCode]

/-- A control instruction is read back from its fields (R153 to R155). -/
theorem decodeFields_encodeFields_control {i : Instr} (h : i.ControlForm) : decodeFields (encodeFields i) = .ok i := by
  cases h
  case branchR c m a p arg loc =>
    have h : (Except.ok (.branchR c (MMode.ofCode m.code) a p arg loc) : Except DecodeError Instr) =
        .ok (.branchR c m a p arg loc) := by rw [MMode.ofCode_code]
    cases c <;> exact h
  case branchO c m a p arg off =>
    have h : (Except.ok (.branchO c (MMode.ofCode m.code) a p arg (off14Fields m a p arg 0 off).imm14) :
        Except DecodeError Instr) = .ok (.branchO c m a p arg off) := by
      rw [MMode.ofCode_code]
      exact congrArg (fun x => Except.ok (Instr.branchO c m a p arg x)) (imm14_pieces off)
    cases c <;> exact h
  case jmpO a p off => exact congrArg Except.ok (congrArg (Instr.jmpO a p) (off20_pieces off))
  case reteO p off => exact congrArg Except.ok (congrArg (Instr.reteO p) (off20_pieces off))
  case retnO p off => exact congrArg Except.ok (congrArg (Instr.retnO p) (off20_pieces off))
  case waitO off => exact congrArg Except.ok (congrArg Instr.waitO (off20_pieces off))
  all_goals rfl

/-- A data transfer is read back from its fields (R142 to R147). -/
theorem decodeFields_encodeFields_transfer {i : Instr} (h : i.TransferForm) : decodeFields (encodeFields i) = .ok i := by
  cases h
  case load atomic m d x => rw [encodeFields_load]; exact decodeFields_memoryFields true atomic m d x
  case store atomic m d x => rw [encodeFields_store]; exact decodeFields_memoryFields false atomic m d x
  case imm m u d x =>
    have h := imm18_encodeFields_movImm m u d x
    simp only [encodeFields] at h ⊢
    simp [decodeFields, decodeInterRegister, h]
    simp [transferFields]
  all_goals simp [encodeFields, decodeFields, decodeInterRegister, transferFields]

/-- FEXT and FSQZ in a mode that has their format are read back from their fields (R152). -/
theorem decodeFields_format {m : MMode} (d : RegNum) (hm : m.isFpWidth = true) :
    decodeFields (encodeFields (.fext m d)) = .ok (.fext m d) ∧
    decodeFields (encodeFields (.fsqz m d)) = .ok (.fsqz m d) := by
  cases m
  case b | s2 | s4 => cases hm
  case h | w | d | q | s1 => exact ⟨rfl, rfl⟩

/-- An arithmetic/logic instruction is read back from its fields (R148 to R152). -/
theorem decodeFields_encodeFields_alu {i : Instr} (h : Machine.Instr.isAlu i = true) (hwf : WellFormed i) :
    decodeFields (encodeFields i) = .ok i := by
  cases i
  case fext m d => exact (decodeFields_format d hwf).1
  case fsqz m d => exact (decodeFields_format d hwf).2
  case fadd | fsub | fmul | fdiv | frem | fcmp | fsqr | fabs | fneg | frnd | fmad | fmsu => rfl
  case madI m u d r x =>
    exact congrArg Except.ok (by congr 1; exacts [MMode.ofCode_code m, imm8_encodeFields_madI m u d r x])
  case msuI m u d r x =>
    exact congrArg Except.ok (by congr 1; exacts [MMode.ofCode_code m, imm8_encodeFields_msuI m u d r x])
  case rlI m d x => exact congrArg₂ (fun m x => Except.ok (Instr.rlI m d x)) (MMode.ofCode_code m) (imm14_pieces x)
  case rrI m d x => exact congrArg₂ (fun m x => Except.ok (Instr.rrI m d x)) (MMode.ofCode_code m) (imm14_pieces x)
  case sbI m d x => exact congrArg₂ (fun m x => Except.ok (Instr.sbI m d x)) (MMode.ofCode_code m) (imm14_pieces x)
  case rbI m d x => exact congrArg₂ (fun m x => Except.ok (Instr.rbI m d x)) (MMode.ofCode_code m) (imm14_pieces x)
  case tbI m d x => exact congrArg₂ (fun m x => Except.ok (Instr.tbI m d x)) (MMode.ofCode_code m) (imm14_pieces x)
  case rvbI m d x => exact congrArg₂ (fun m x => Except.ok (Instr.rvbI m d x)) (MMode.ofCode_code m) (imm14_pieces x)
  case rlR m d r => exact congrArg (fun m => Except.ok (Instr.rlR m d r)) (MMode.ofCode_code m)
  case rrR m d r => exact congrArg (fun m => Except.ok (Instr.rrR m d r)) (MMode.ofCode_code m)
  case sbR m d r => exact congrArg (fun m => Except.ok (Instr.sbR m d r)) (MMode.ofCode_code m)
  case rbR m d r => exact congrArg (fun m => Except.ok (Instr.rbR m d r)) (MMode.ofCode_code m)
  case tbR m d r => exact congrArg (fun m => Except.ok (Instr.tbR m d r)) (MMode.ofCode_code m)
  case rvbR m d r => exact congrArg (fun m => Except.ok (Instr.rvbR m d r)) (MMode.ofCode_code m)
  case addI | subI | mulI | divI | slI | srI | andI | nandI | orI | xorI =>
    exact congrArg Except.ok (by congr 1; exacts [MMode.ofCode_code _, imm14_pieces _])
  case addR | subR | mulR | divR | slR | srR | andR | nandR | orR | xorR | madR | msuR | ff2i | fi2f =>
    exact congrArg Except.ok (by congr 1; exact MMode.ofCode_code _)
  all_goals cases h

/-- Settles O1: by the form of the instruction, each operand is a field of the word or put together from some. -/
theorem decodeOfEncode : Obligations.DecodeOfEncode := by
  intro i hwf
  rw [decode_encode_fields]
  obtain h | h | h := i.form_cases
  · exact decodeFields_encodeFields_alu h hwf
  · exact decodeFields_encodeFields_transfer h
  · exact decodeFields_encodeFields_control h

/-- Settles O4, by evaluating the decoder on the eighteen words. -/
theorem exampleWordsDecode : Obligations.ExampleWordsDecode := by
  unfold Obligations.ExampleWordsDecode
  decide

end Sys2Proof

namespace Sys2Proof

/-! ## Words that decode to no instruction -/

/-- A memory transfer decodes but for the unassigned AUXCODEs (R156 item 1). -/
theorem decodeMemory_cases (f : Fields) :
    let bad := f.b26 = false ∧ f.aux.toNat ∈ [3, 4, 7, 11, 12, 15]
    (bad ∧ ∃ e, decodeMemory f = .error e) ∨ (¬bad ∧ ∃ i, decodeMemory f = .ok i ∧ i.TransferForm) := by
  intro bad
  have hcode : ∀ a : BitVec 4, Update.ofCode (a.extractLsb' 0 3) = none ↔ a.toNat ∈ [3, 4, 7, 11, 12, 15] := by decide
  have hform : ∀ x, ((if f.group.getLsbD 0 then Instr.load f.b25 (MMode.ofCode f.mmode) f.dest
      else Instr.store f.b25 (MMode.ofCode f.mmode) f.dest) x).TransferForm := by
    intro x
    split
    · exact .load _ _ _ x
    · exact .store _ _ _ x
  unfold decodeMemory
  cases h26 : f.b26
  case true => exact .inr ⟨fun h => Bool.false_ne_true (h.1.symm.trans h26), _, rfl, hform _⟩
  case false =>
    cases hu : Update.ofCode (f.aux.extractLsb' 0 3)
    case none => exact .inl ⟨⟨h26, (hcode _).1 hu⟩, _, rfl⟩
    case some u =>
      refine .inr ⟨fun h => ?_, _, rfl, hform _⟩
      rw [(hcode _).2 h.2] at hu
      cases hu

/-- An inter-register transfer decodes but for items 2, 3 and 4 of R156. -/
theorem decodeInterRegister_cases (f : Fields) :
    let bad := f.group.getLsbD 0 = false ∨ (f.b26 = false ∧ f.b25 = true) ∨
      (f.b26 = false ∧ 5 ≤ f.aux.toNat ∧ f.aux.toNat ≤ 13)
    (bad ∧ ∃ e, decodeInterRegister f = .error e) ∨ (¬bad ∧ ∃ i, decodeInterRegister f = .ok i ∧ i.TransferForm) := by
  intro bad
  unfold decodeInterRegister
  cases hl : f.group.getLsbD 0
  case false => exact .inl ⟨.inl hl, _, rfl⟩
  cases h26 : f.b26
  case true => exact .inr ⟨by simp [bad, hl, h26], _, rfl, .imm _ _ _ _⟩
  cases h25 : f.b25
  case true => exact .inl ⟨.inr (.inl ⟨h26, h25⟩), _, rfl⟩
  simp only [bad, hl, h26, h25, Bool.not_true, Bool.false_eq_true, if_false, reduceCtorEq, false_or, and_false, true_and]
  split
  case h_8 =>
    refine .inl ⟨?_, _, rfl⟩
    have := f.aux.isLt
    simp only [imp_false, BitVec.toNat_eq, BitVec.reduceToNat] at *
    omega
  all_goals
    rename_i haux
    refine .inr ⟨by simp [haux], _, rfl, ?_⟩
    constructor

/-- An integer instruction decodes but for AUXCODE 1101 (R156 item 5). -/
theorem decodeIntegerR_cases (f : Fields) :
    (f.aux.toNat = 13 ∧ ∃ e, decodeIntegerR f = .error e) ∨
    (f.aux.toNat ≠ 13 ∧ ∃ i, decodeIntegerR f = .ok i ∧ WellFormed i) := by
  unfold decodeIntegerR
  split
  case h_16 =>
    refine .inl ⟨?_, _, rfl⟩
    have := f.aux.isLt
    simp only [imp_false, BitVec.toNat_eq, BitVec.reduceToNat] at *
    omega
  all_goals
    rename_i haux
    refine .inr ⟨by simp [haux], _, rfl, ?_⟩
    (try split) <;> trivial

theorem decodeIntegerI_cases (f : Fields) :
    (f.aux.toNat = 13 ∧ ∃ e, decodeIntegerI f = .error e) ∨
    (f.aux.toNat ≠ 13 ∧ ∃ i, decodeIntegerI f = .ok i ∧ WellFormed i) := by
  unfold decodeIntegerI
  split
  case h_16 =>
    refine .inl ⟨?_, _, rfl⟩
    have := f.aux.isLt
    simp only [imp_false, BitVec.toNat_eq, BitVec.reduceToNat] at *
    omega
  all_goals
    rename_i haux
    refine .inr ⟨by simp [haux], _, rfl, ?_⟩
    (try split) <;> trivial

theorem fpIf_cases {c : Bool} {i : Instr} (h : c = true → WellFormed i) :
    (c = false ∧ ∃ e, fpIf c i = .error e) ∨ (c = true ∧ ∃ j, fpIf c i = .ok j ∧ WellFormed j) := by
  cases c
  case false => exact .inl ⟨rfl, _, rfl⟩
  case true => exact .inr ⟨rfl, _, rfl, h rfl⟩

theorem MMode.isFpWidth_ofCode (c : BitVec 3) : (MMode.ofCode c).isFpWidth = false ↔ c = 0 ∨ c = 6 ∨ c = 7 := by
  revert c
  decide

/-- A floating-point instruction decodes where its fixed bits are right (R156 item 6). -/
theorem decodeFloat_cases (f : Fields) :
    let bad := f.b26 = true ∨
      (f.aux.toNat ∈ [0, 1, 2, 3, 4, 5, 6, 7, 8, 9, 14, 15] ∧ (f.mmode ≠ 0 ∨ f.b25 = true)) ∨
      (f.aux.toNat ∈ [12, 13] ∧ (f.b25 = true ∨ f.mmode = 0 ∨ f.mmode = 6 ∨ f.mmode = 7))
    (bad ∧ ∃ e, decodeFloat f = .error e) ∨ (¬bad ∧ ∃ i, decodeFloat f = .ok i ∧ WellFormed i) := by
  intro bad
  have key : ∀ {c : Bool} {i : Instr}, (bad ↔ c = false) → (c = true → WellFormed i) →
      (bad ∧ ∃ e, fpIf c i = .error e) ∨ (¬bad ∧ ∃ j, fpIf c i = .ok j ∧ WellFormed j) := by
    intro c i hbad hwf
    obtain ⟨hc, h⟩ | ⟨hc, h⟩ := fpIf_cases hwf
    · exact .inl ⟨hbad.2 hc, h⟩
    · exact .inr ⟨by simp [hbad, hc], h⟩
  unfold decodeFloat
  dsimp only
  split
  case h_13 haux | h_14 haux =>
    refine key ?_ fun h => ?_
    · simp only [bad, haux]
      cases f.b26 <;> cases f.b25 <;> simp [MMode.isFpWidth_ofCode]
    · simp only [Bool.and_eq_true] at h
      exact h.2
  case h_11 haux | h_12 haux => exact key (by simp [bad, haux]) fun _ => trivial
  case h_16 =>
    have haux : f.aux = 15 := by
      have := f.aux.isLt
      simp only [imp_false, BitVec.toNat_eq, BitVec.reduceToNat] at *
      omega
    refine key ?_ fun _ => trivial
    simp [bad, haux, or_assoc, or_left_comm, imp_iff_not_or]
  all_goals
    rename_i haux
    refine key ?_ fun _ => trivial
    simp [bad, haux, or_assoc, or_left_comm, imp_iff_not_or]

/-- A return decodes in its assigned forms (R156 item 9). -/
theorem decodeReturn_cases (f : Fields) :
    let bad := 4 ≤ f.mmode.toNat ∨ (f.b25 = false ∧ f.b26 = true) ∨ (f.mmode.toNat ≤ 1 ∧ f.b25 = true)
    (bad ∧ ∃ e, decodeReturn f = .error e) ∨ (¬bad ∧ ∃ i, decodeReturn f = .ok i ∧ i.ControlForm) := by
  intro bad
  unfold decodeReturn
  split
  case h_9 h1 h2 h3 h4 h5 h6 h7 h8 =>
    refine .inl ⟨?_, _, rfl⟩
    by_contra hb
    simp only [bad, not_or, not_and, not_le] at hb
    obtain ⟨hb1, hb2, hb3⟩ := hb
    have hc : ∀ c : BitVec 3, c.toNat < 4 → c = 0 ∨ c = 1 ∨ c = 2 ∨ c = 3 := by decide
    cases h26 : f.b26 <;> cases h25 : f.b25 <;> obtain h | h | h | h := hc _ hb1 <;> simp_all
  all_goals
    rename_i hm h26 h25
    refine .inr ⟨by simp [bad, hm, h26, h25], _, rfl, ?_⟩
    constructor

/-- A control instruction decodes but for items 7 to 10 of R156. -/
theorem decodeControl_cases (f : Fields) :
    let bad := f.aux.toNat = 15 ∨ (f.aux.toNat = 0 ∧ f.mmode ≠ 0) ∨
      (f.aux.toNat = 13 ∧
        (4 ≤ f.mmode.toNat ∨ (f.b25 = false ∧ f.b26 = true) ∨ (f.mmode.toNat ≤ 1 ∧ f.b25 = true))) ∨
      (f.aux.toNat = 14 ∧ (f.mmode ≠ 0 ∨ f.b25 = true ∨ f.b24 = true))
    (bad ∧ ∃ e, decodeControl f = .error e) ∨ (¬bad ∧ ∃ i, decodeControl f = .ok i ∧ i.ControlForm) := by
  intro bad
  unfold decodeControl
  dsimp only
  split
  case h_1 haux =>
    by_cases hm : f.mmode = 0
    · refine .inr ⟨by simp [bad, haux, hm], _, if_pos (by simp [hm]), ?_⟩
      split
      · exact .jmpO _ _ _
      · exact .jmpR _ _ _
    · exact .inl ⟨.inr (.inl ⟨by simp [haux], hm⟩), _, if_neg (by simpa using hm)⟩
  case h_14 haux =>
    obtain ⟨hb, h⟩ | ⟨hb, h⟩ := decodeReturn_cases f
    · exact .inl ⟨by simpa [bad, haux] using hb, h⟩
    · exact .inr ⟨by simpa [bad, haux] using hb, h⟩
  case h_15 haux =>
    by_cases hw : f.mmode = 0 ∧ f.b25 = false ∧ f.b24 = false
    · obtain ⟨hm, h25, h24⟩ := hw
      refine .inr ⟨by simp [bad, haux, hm, h25, h24], _, if_pos (by simp [hm, h25, h24]), ?_⟩
      split
      · exact .waitO _
      · exact .waitR _
    · refine .inl ⟨?_, _, if_neg (by simpa [and_assoc] using hw)⟩
      simp only [bad, haux]
      simp only [not_and_or, Bool.not_eq_false] at hw
      exact .inr (.inr (.inr ⟨rfl, hw⟩))
  case h_16 =>
    refine .inl ⟨.inl ?_, _, rfl⟩
    have := f.aux.isLt
    simp only [imp_false, BitVec.toNat_eq, BitVec.reduceToNat] at *
    omega
  all_goals
    rename_i haux
    refine .inr ⟨by simp [bad, haux], _, rfl, ?_⟩
    split
    · exact .branchO _ _ _ _ _ _
    · exact .branchR _ _ _ _ _ _

theorem Instr.TransferForm.wellFormed {i : Instr} (h : i.TransferForm) : WellFormed i := by
  cases h
  case load atomic m d x =>
    obtain _ | ⟨_, upd⟩ | ⟨_, _, upd⟩ := x
    · cases atomic <;> trivial
    · cases atomic <;> cases upd <;> trivial
    · cases atomic <;> cases upd <;> trivial
  case store atomic m d x =>
    obtain _ | ⟨_, upd⟩ | ⟨_, _, upd⟩ := x
    · cases atomic <;> trivial
    · cases atomic <;> cases upd <;> trivial
    · cases atomic <;> cases upd <;> trivial
  all_goals trivial

theorem Instr.ControlForm.wellFormed {i : Instr} (h : i.ControlForm) : WellFormed i := by
  cases h
  case branchR c _ _ _ _ _ | branchO c _ _ _ _ _ => cases c <;> trivial
  all_goals trivial

/-- The list of R156 on the fields of a word. -/
def Fields.Invalid (f : Fields) : Prop :=
  let d := f.group.getLsbD 1
  let l := f.group.getLsbD 0
  let aux := f.aux.toNat
  (d = true ∧ f.b24 = false ∧ f.b26 = false ∧ aux ∈ [3, 4, 7, 11, 12, 15]) ∨
  (d = true ∧ f.b24 = true ∧ l = false) ∨
  (d = true ∧ f.b24 = true ∧ f.b26 = false ∧ f.b25 = true) ∨
  (d = true ∧ f.b24 = true ∧ f.b26 = false ∧ 5 ≤ aux ∧ aux ≤ 13) ∨
  (d = false ∧ l = false ∧ f.b24 = false ∧ aux = 13) ∨
  (d = false ∧ l = false ∧ f.b24 = true ∧
    (f.b26 = true ∨
     (aux ∈ [0, 1, 2, 3, 4, 5, 6, 7, 8, 9, 14, 15] ∧ (f.mmode ≠ 0 ∨ f.b25 = true)) ∨
     (aux ∈ [12, 13] ∧ (f.b25 = true ∨ f.mmode = 0 ∨ f.mmode = 6 ∨ f.mmode = 7)))) ∨
  (d = false ∧ l = true ∧ aux = 15) ∨
  (d = false ∧ l = true ∧ aux = 0 ∧ f.mmode ≠ 0) ∨
  (d = false ∧ l = true ∧ aux = 13 ∧
    (4 ≤ f.mmode.toNat ∨ (f.b25 = false ∧ f.b26 = true) ∨ (f.mmode.toNat ≤ 1 ∧ f.b25 = true))) ∨
  (d = false ∧ l = true ∧ aux = 14 ∧ (f.mmode ≠ 0 ∨ f.b25 = true ∨ f.b24 = true))

theorem invalidWord_iff_fields (w : Word) : Machine.InvalidWord w ↔ (Fields.ofWord w).Invalid := by
  have h31 : w.getLsbD 31 = (Fields.ofWord w).group.getLsbD 1 := by simp [Fields.ofWord]
  have h30 : w.getLsbD 30 = (Fields.ofWord w).group.getLsbD 0 := by simp [Fields.ofWord]
  unfold Machine.InvalidWord Fields.Invalid
  rw [h31, h30]
  rfl

theorem wellFormed_of_form {bad : Prop} {sub : Except DecodeError Instr} {form : Instr → Prop}
    (hwf : ∀ i, form i → WellFormed i)
    (h : (bad ∧ ∃ e, sub = .error e) ∨ (¬bad ∧ ∃ i, sub = .ok i ∧ form i)) :
    (bad ∧ ∃ e, sub = .error e) ∨ (¬bad ∧ ∃ i, sub = .ok i ∧ WellFormed i) :=
  h.imp_right fun ⟨hb, i, hi, hform⟩ => ⟨hb, i, hi, hwf i hform⟩

/-- Fields decode to a well-formed instruction, or they are those of a word of the list. -/
theorem decodeFields_cases (f : Fields) :
    (f.Invalid ∧ ∃ e, decodeFields f = .error e) ∨ (¬f.Invalid ∧ ∃ i, decodeFields f = .ok i ∧ WellFormed i) := by
  have hgroup : ∀ g : BitVec 2, g = 0 ∨ g = 1 ∨ g.getLsbD 1 = true ∧ g ≠ 0 ∧ g ≠ 1 := by decide
  obtain hg | hg | ⟨hd, hg0, hg1⟩ := hgroup f.group
  · cases hf : f.b24
    case false =>
      cases hi : f.b26
      case false => simpa [Fields.Invalid, decodeFields, hg, hf, hi] using decodeIntegerR_cases f
      case true => simpa [Fields.Invalid, decodeFields, hg, hf, hi] using decodeIntegerI_cases f
    case true => simpa [Fields.Invalid, decodeFields, hg, hf] using decodeFloat_cases f
  · simpa [Fields.Invalid, decodeFields, hg] using
      wellFormed_of_form (fun _ => Instr.ControlForm.wellFormed) (decodeControl_cases f)
  · have hd' : f.group[1] = true := by simpa using hd
    have hsub : decodeFields f = if f.b24 then decodeInterRegister f else decodeMemory f := by
      unfold decodeFields
      split <;> first | contradiction | rfl
    cases hf : f.b24
    case false =>
      simpa [Fields.Invalid, hsub, hd', hf] using wellFormed_of_form (fun _ => Instr.TransferForm.wellFormed) (decodeMemory_cases f)
    case true =>
      simpa [Fields.Invalid, hsub, hd', hf] using
        wellFormed_of_form (fun _ => Instr.TransferForm.wellFormed) (decodeInterRegister_cases f)

/-- A word decodes to a well-formed instruction, or it is one of those R156 lists. -/
theorem decode_cases (w : Word) :
    (Machine.InvalidWord w ∧ ∃ e, decode w = .error e) ∨
    (¬Machine.InvalidWord w ∧ ∃ i, decode w = .ok i ∧ WellFormed i) := by
  rw [invalidWord_iff_fields]
  exact decodeFields_cases (Fields.ofWord w)

/-- Settles O2: group by group, a word decodes to a well-formed instruction or is in the list. -/
theorem invalidWords : Obligations.InvalidWords := by
  intro w
  obtain ⟨hbad, e, he⟩ | ⟨hgood, i, hi, hwf⟩ := decode_cases w
  · exact ⟨⟨fun _ => hbad, fun _ => ⟨e, he⟩⟩, fun i hi => by rw [he] at hi; cases hi⟩
  · refine ⟨⟨fun ⟨e, he⟩ => ?_, fun hbad => absurd hbad hgood⟩, fun j hj => ?_⟩
    · rw [hi] at he
      cases he
    · rw [hi] at hj
      cases hj
      exact hwf

/-! ## Bits a form does not use -/

/-- A field inside the used bits is the same in two words that agree in them. -/
theorem extractLsb'_eq_of_and_eq {v w used : Word} (h : v &&& used = w &&& used) (start : Nat) {len : Nat}
    (hused : used.extractLsb' start len = BitVec.allOnes len) : v.extractLsb' start len = w.extractLsb' start len := by
  have hlen := congrArg (BitVec.extractLsb' start len) h
  rwa [BitVec.extractLsb'_and, BitVec.extractLsb'_and, hused, BitVec.and_allOnes, BitVec.and_allOnes] at hlen

/-- A bit among the used ones is the same in two words that agree in them. -/
theorem getLsbD_eq_of_and_eq {v w used : Word} (h : v &&& used = w &&& used) {k : Nat} (hused : used.getLsbD k = true) :
    v.getLsbD k = w.getLsbD k := by
  have hk := congrArg (BitVec.getLsbD · k) h
  simpa [BitVec.getLsbD_and, hused] using hk

/-- A register form of an integer instruction reads bits 13:12 nowhere and SOURCE2 in MAD and MSU only. -/
theorem decodeIntegerR_unused {f g : Fields} (hm : f.mmode = g.mmode) (h25 : f.b25 = g.b25)
    (hd : f.dest = g.dest) (ha : f.aux = g.aux) (hmid : f.mid = g.mid) (hlo : f.lo = g.lo ∨ g.aux.toNat < 14) :
    decodeIntegerR f = decodeIntegerR g := by
  unfold decodeIntegerR
  rw [hm, h25, hd, ha, hmid]
  split
  case h_14 haux | h_15 haux => rw [hlo.resolve_right (by simp [haux])]
  all_goals rfl

/-- AND, NAND, OR and XOR of registers do not read bit 25. -/
theorem decodeIntegerR_logic_unused {f g : Fields} (hm : f.mmode = g.mmode) (hd : f.dest = g.dest) (ha : f.aux = g.aux)
    (hmid : f.mid = g.mid) (haux : 7 ≤ g.aux.toNat ∧ g.aux.toNat ≤ 10) : decodeIntegerR f = decodeIntegerR g := by
  unfold decodeIntegerR
  rw [hm, hd, ha, hmid]
  split
  case h_8 | h_9 | h_10 | h_11 => rfl
  case h_16 => rfl
  all_goals
    rename_i h
    simp [h] at haux

/-- A floating-point instruction reads SOURCE up to AUXCODE 0101, SOURCE and SOURCE2 from 1110 on. -/
theorem decodeFloat_unused {f g : Fields} (hm : f.mmode = g.mmode) (h26 : f.b26 = g.b26) (h25 : f.b25 = g.b25)
    (hd : f.dest = g.dest) (ha : f.aux = g.aux) (hmid : f.mid = g.mid ∨ (6 ≤ g.aux.toNat ∧ g.aux.toNat ≤ 13))
    (hlo : f.lo = g.lo ∨ g.aux.toNat < 14) : decodeFloat f = decodeFloat g := by
  unfold decodeFloat
  rw [hm, h26, h25, hd, ha]
  split
  case h_16 =>
    have haux : g.aux.toNat = 15 := by
      have := g.aux.isLt
      simp only [imp_false, BitVec.toNat_eq, BitVec.reduceToNat] at *
      omega
    rw [hmid.resolve_right (by omega), hlo.resolve_right (by omega)]
  case h_15 haux => rw [hmid.resolve_right (by simp [haux]), hlo.resolve_right (by simp [haux])]
  case h_1 haux | h_2 haux | h_3 haux | h_4 haux | h_5 haux | h_6 haux => rw [hmid.resolve_right (by simp [haux])]
  all_goals rfl

/-- A return reads LOCATION with an argument in a register, OFFSET20 with one in the word. -/
theorem decodeReturn_unused {f g : Fields} (hm : f.mmode = g.mmode) (h26 : f.b26 = g.b26) (h25 : f.b25 = g.b25)
    (h24 : f.b24 = g.b24) (hno : g.b26 = false) (hmid : f.mid = g.mid ∨ g.b25 = false) :
    decodeReturn f = decodeReturn g := by
  unfold decodeReturn
  rw [hm, h26, h25, h24]
  split
  case h_4 _ _ h | h_7 _ _ h => rw [hmid.resolve_right (by simp [h])]
  case h_5 h _ | h_8 h _ => rw [hno] at h; cases h
  all_goals rfl

/-- A control instruction without offset reads ARGUMENT in a branch, LOCATION but in a return without argument. -/
theorem decodeControl_unused {f g : Fields} (hm : f.mmode = g.mmode) (h26 : f.b26 = g.b26) (h25 : f.b25 = g.b25)
    (h24 : f.b24 = g.b24) (ha : f.aux = g.aux) (hno : g.b26 = false)
    (hd : f.dest = g.dest ∨ g.aux.toNat = 0 ∨ 13 ≤ g.aux.toNat)
    (hmid : f.mid = g.mid ∨ (g.aux.toNat = 13 ∧ g.b25 = false)) : decodeControl f = decodeControl g := by
  have hreturn : g.aux.toNat = 13 → decodeReturn f = decodeReturn g := fun _ =>
    decodeReturn_unused hm h26 h25 h24 hno (hmid.imp_right And.right)
  unfold decodeControl
  rw [hm, h26, h25, h24, ha, hno]
  simp only [Bool.false_eq_true, if_false]
  split
  case h_14 haux => exact hreturn (by simp [haux])
  case h_1 haux | h_15 haux => rw [hmid.resolve_right (by simp [haux])]
  case h_16 => rfl
  all_goals
    rename_i haux
    rw [hmid.resolve_right (by simp [haux]), hd.resolve_right (by simp [haux])]

/-- A memory transfer without displacement reads BASE with indexed addressing only. -/
theorem decodeMemory_unused {f g : Fields} (hg : f.group = g.group) (hm : f.mmode = g.mmode) (h26 : f.b26 = g.b26)
    (h25 : f.b25 = g.b25) (hd : f.dest = g.dest) (ha : f.aux = g.aux) (hlo : f.lo = g.lo) (hno : g.b26 = false)
    (hmid : f.mid = g.mid ∨ g.aux.getLsbD 3 = false) : decodeMemory f = decodeMemory g := by
  unfold decodeMemory
  rw [hg, hm, h26, h25, hd, ha, hlo, hno]
  obtain h | h := hmid
  · rw [h]; rfl
  · rw [h]; rfl

/-- An inter-register transfer reads bits 13:6 with an immediate only. -/
theorem decodeInterRegister_unused {f g : Fields} (hg : f.group = g.group) (hm : f.mmode = g.mmode)
    (h26 : f.b26 = g.b26) (h25 : f.b25 = g.b25) (hd : f.dest = g.dest) (ha : f.aux = g.aux) (hlo : f.lo = g.lo)
    (hno : g.b26 = false) : decodeInterRegister f = decodeInterRegister g := by
  unfold decodeInterRegister
  rw [hg, hm, h26, h25, hd, ha, hlo, hno]
  rfl

/-! ### The sub-decoder of a word -/

theorem decodeFields_transfer {f : Fields} (h : f.group.getLsbD 1 = true) :
    decodeFields f = if f.b24 then decodeInterRegister f else decodeMemory f := by
  have hg : f.group ≠ 0 ∧ f.group ≠ 1 := by constructor <;> intro h0 <;> simp [h0] at h
  obtain ⟨hg0, hg1⟩ := hg
  unfold decodeFields
  split <;> first | contradiction | rfl

theorem getLsbD_group_ofWord (w : Word) : (Fields.ofWord w).group.getLsbD 1 = w.getLsbD 31 := by simp [Fields.ofWord]

theorem decode_memory {w : Word} (h31 : w.getLsbD 31 = true) (h24 : w.getLsbD 24 = false) :
    decode w = decodeMemory (Fields.ofWord w) :=
  (decodeFields_transfer ((getLsbD_group_ofWord w).trans h31)).trans (if_neg (Bool.eq_false_iff.1 h24))

theorem decode_interRegister {w : Word} (h31 : w.getLsbD 31 = true) (h24 : w.getLsbD 24 = true) :
    decode w = decodeInterRegister (Fields.ofWord w) :=
  (decodeFields_transfer ((getLsbD_group_ofWord w).trans h31)).trans (if_pos h24)

theorem decode_integerR {w : Word} (hg : w.extractLsb' 30 2 = 0) (h24 : w.getLsbD 24 = false)
    (h26 : w.getLsbD 26 = false) : decode w = decodeIntegerR (Fields.ofWord w) := by
  have hg' : (Fields.ofWord w).group = 0 := hg
  have h24' : (Fields.ofWord w).b24 = false := h24
  have h26' : (Fields.ofWord w).b26 = false := h26
  simp [decode, decodeFields, hg', h24', h26']

theorem decode_float {w : Word} (hg : w.extractLsb' 30 2 = 0) (h24 : w.getLsbD 24 = true) :
    decode w = decodeFloat (Fields.ofWord w) := by
  have hg' : (Fields.ofWord w).group = 0 := hg
  have h24' : (Fields.ofWord w).b24 = true := h24
  simp [decode, decodeFields, hg', h24']

theorem decode_control {w : Word} (hg : w.extractLsb' 30 2 = 1) : decode w = decodeControl (Fields.ofWord w) := by
  have hg' : (Fields.ofWord w).group = 1 := hg
  simp [decode, decodeFields, hg']

/-- Settles O3: the fields inside the used bits agree, and each sub-decoder reads no other one. -/
theorem unusedBitsIgnored : Obligations.UnusedBitsIgnored := by
  intro v w group aux b24 b25 b26 transfer alu control onlyUsed
  have field {used : Word} (h : v &&& used = w &&& used) (start len : Nat)
      (hused : used.extractLsb' start len = BitVec.allOnes len) :
      v.extractLsb' start len = w.extractLsb' start len := extractLsb'_eq_of_and_eq h start hused
  have bit {used : Word} (h : v &&& used = w &&& used) (k : Nat) (hused : used.getLsbD k = true) :
      v.getLsbD k = w.getLsbD k := getLsbD_eq_of_and_eq h hused
  have haux3 : ∀ a : BitVec 4, a.toNat < 8 → a.getLsbD 3 = false := by decide
  simp only [onlyUsed, transfer, alu, control, b24, b25, b26, Bool.not_eq_true]
  refine ⟨?regForm, ?idxForm, ?interRegister, ?integer, ?logic, ?madMsu, ?fpTwo, ?fpOne, ?fpThree, ?jump, ?branch,
    ?returnPlain, ?returnReg⟩
  case regForm =>
    intro h31 h24 h26 haux h
    rw [decode_memory ((bit h 31 rfl).trans h31) ((bit h 24 rfl).trans h24), decode_memory h31 h24]
    exact decodeMemory_unused (field h 30 2 rfl) (field h 27 3 rfl) (bit h 26 rfl) (bit h 25 rfl) (field h 18 6 rfl)
      (field h 14 4 rfl) (field h 0 6 rfl) h26 (.inr (haux3 _ haux))
  case idxForm =>
    intro h31 h24 h26 haux h
    rw [decode_memory ((bit h 31 rfl).trans h31) ((bit h 24 rfl).trans h24), decode_memory h31 h24]
    exact decodeMemory_unused (field h 30 2 rfl) (field h 27 3 rfl) (bit h 26 rfl) (bit h 25 rfl) (field h 18 6 rfl)
      (field h 14 4 rfl) (field h 0 6 rfl) h26 (.inl (field h 6 6 rfl))
  case interRegister =>
    intro h31 h24 h26 h
    rw [decode_interRegister ((bit h 31 rfl).trans h31) ((bit h 24 rfl).trans h24), decode_interRegister h31 h24]
    exact decodeInterRegister_unused (field h 30 2 rfl) (field h 27 3 rfl) (bit h 26 rfl) (bit h 25 rfl)
      (field h 18 6 rfl) (field h 14 4 rfl) (field h 0 6 rfl) h26
  case integer =>
    intro hg h24 h26 haux h
    rw [decode_integerR ((field h 30 2 rfl).trans hg) ((bit h 24 rfl).trans h24) ((bit h 26 rfl).trans h26),
      decode_integerR hg h24 h26]
    exact decodeIntegerR_unused (field h 27 3 rfl) (bit h 25 rfl) (field h 18 6 rfl) (field h 14 4 rfl)
      (field h 6 6 rfl) (.inr haux)
  case logic =>
    intro hg h24 h26 hlow hhigh h
    rw [decode_integerR ((field h 30 2 rfl).trans hg) ((bit h 24 rfl).trans h24) ((bit h 26 rfl).trans h26),
      decode_integerR hg h24 h26]
    exact decodeIntegerR_logic_unused (field h 27 3 rfl) (field h 18 6 rfl) (field h 14 4 rfl) (field h 6 6 rfl)
      ⟨hlow, hhigh⟩
  case madMsu =>
    intro hg h24 h26 _ h
    rw [decode_integerR ((field h 30 2 rfl).trans hg) ((bit h 24 rfl).trans h24) ((bit h 26 rfl).trans h26),
      decode_integerR hg h24 h26]
    exact decodeIntegerR_unused (field h 27 3 rfl) (bit h 25 rfl) (field h 18 6 rfl) (field h 14 4 rfl)
      (field h 6 6 rfl) (.inl (field h 0 6 rfl))
  case fpTwo =>
    intro hg h24 haux h
    rw [decode_float ((field h 30 2 rfl).trans hg) ((bit h 24 rfl).trans h24), decode_float hg h24]
    exact decodeFloat_unused (field h 27 3 rfl) (bit h 26 rfl) (bit h 25 rfl) (field h 18 6 rfl) (field h 14 4 rfl)
      (.inl (field h 6 6 rfl)) (.inr (show aux < 14 by omega))
  case fpOne =>
    intro hg h24 hlow hhigh h
    rw [decode_float ((field h 30 2 rfl).trans hg) ((bit h 24 rfl).trans h24), decode_float hg h24]
    exact decodeFloat_unused (field h 27 3 rfl) (bit h 26 rfl) (bit h 25 rfl) (field h 18 6 rfl) (field h 14 4 rfl)
      (.inr ⟨hlow, hhigh⟩) (.inr (show aux < 14 by omega))
  case fpThree =>
    intro hg h24 _ h
    rw [decode_float ((field h 30 2 rfl).trans hg) ((bit h 24 rfl).trans h24), decode_float hg h24]
    exact decodeFloat_unused (field h 27 3 rfl) (bit h 26 rfl) (bit h 25 rfl) (field h 18 6 rfl) (field h 14 4 rfl)
      (.inl (field h 6 6 rfl)) (.inl (field h 0 6 rfl))
  case jump =>
    intro hg h26 haux h
    rw [decode_control ((field h 30 2 rfl).trans hg), decode_control hg]
    exact decodeControl_unused (field h 27 3 rfl) (bit h 26 rfl) (bit h 25 rfl) (bit h 24 rfl) (field h 14 4 rfl) h26
      (.inr (show aux = 0 ∨ 13 ≤ aux by omega)) (.inl (field h 6 6 rfl))
  case branch =>
    intro hg h26 _ _ h
    rw [decode_control ((field h 30 2 rfl).trans hg), decode_control hg]
    exact decodeControl_unused (field h 27 3 rfl) (bit h 26 rfl) (bit h 25 rfl) (bit h 24 rfl) (field h 14 4 rfl) h26
      (.inl (field h 18 6 rfl)) (.inl (field h 6 6 rfl))
  case returnPlain =>
    intro hg h26 h25 haux h
    rw [decode_control ((field h 30 2 rfl).trans hg), decode_control hg]
    exact decodeControl_unused (field h 27 3 rfl) (bit h 26 rfl) (bit h 25 rfl) (bit h 24 rfl) (field h 14 4 rfl) h26
      (.inr (show aux = 0 ∨ 13 ≤ aux by omega)) (.inr ⟨haux, h25⟩)
  case returnReg =>
    intro hg h26 _ haux h
    rw [decode_control ((field h 30 2 rfl).trans hg), decode_control hg]
    exact decodeControl_unused (field h 27 3 rfl) (bit h 26 rfl) (bit h 25 rfl) (bit h 24 rfl) (field h 14 4 rfl) h26
      (.inr (show aux = 0 ∨ 13 ≤ aux by omega)) (.inl (field h 6 6 rfl))

end Sys2Proof

/-! PROOFS of the statements about register files (10_state.md R25, R26, R36, R37): what a write puts in a file, bit by
bit, the last part that falls on a bit winning; the GPR file and the special register file. -/
namespace Sys2Proof.Machine

/-! ## A write to a register file, bit by bit -/

/-- A bit no part of the datum falls on keeps its value. -/
theorem scatter_bit_kept {base n c k i w v x b : Nat} {file : List Reg}
    (h : ∀ j < k, ¬(base + (i + j) % n = x ∧ b < min c (w - c * j))) :
    ((scatter file base n c k i w v).getD x 0).getLsbD b = (file.getD x 0).getLsbD b := by
  induction k generalizing file i w v with
  | zero => rfl
  | succ k ih =>
    rw [scatter, ih]
    · by_cases hx : base + i % n = x
      case neg => rw [getD_set_other _ hx]
      case pos =>
        subst hx
        by_cases hlen : base + i % n < file.length
        case neg => rw [List.set_eq_of_length_le (by omega)]
        case pos =>
          have hb : ¬b < min c w := fun hb => h 0 (by omega) ⟨by simp, by simpa using hb⟩
          rw [getD_set_same hlen]
          by_cases hb' : b < 1024
          · rw [setLow_bit _ _ _ _ hb', if_neg hb]
          · rw [BitVec.getLsbD_of_ge _ _ (by omega), BitVec.getLsbD_of_ge _ _ (by omega)]
    · intro j hj hput
      refine h (j + 1) (by omega) ?_
      rwa [show i + (j + 1) = i + 1 + j by omega, show w - c * (j + 1) = w - c - c * j by rw [Nat.mul_succ]; omega]

/-- A bit on which part `j` of the datum falls and no later one holds the datum's bit. -/
theorem scatter_bit_put {base n c k i w v x b j : Nat} {file : List Reg} (hlen : x < file.length) (hc : c ≤ 1024)
    (hj : j < k) (hx : base + (i + j) % n = x) (hb : b < min c (w - c * j))
    (hlast : ∀ j', j < j' → j' < k → ¬(base + (i + j') % n = x ∧ b < min c (w - c * j'))) :
    ((scatter file base n c k i w v).getD x 0).getLsbD b = v.testBit (c * j + b) := by
  induction k generalizing file i w v j with
  | zero => omega
  | succ k ih =>
    have hshift (j : Nat) : i + (j + 1) = i + 1 + j ∧ w - c * (j + 1) = w - c - c * j := by
      rw [Nat.mul_succ]; omega
    rw [scatter]
    cases j with
    | zero =>
      rw [scatter_bit_kept]
      · subst hx
        rw [Nat.add_zero, getD_set_same (by simpa using hlen), setLow_bit _ _ _ _ (by omega),
          if_pos (by simpa using hb)]
        simp
      · intro j' hj' hput
        refine hlast (j' + 1) (by omega) (by omega) ?_
        rwa [(hshift j').1, (hshift j').2]
    | succ j =>
      have hx' : base + (i + 1 + j) % n = x := by rw [← (hshift j).1]; exact hx
      have hb' : b < min c (w - c - c * j) := by rw [← (hshift j).2]; exact hb
      rw [ih (by simpa using hlen) (Nat.lt_of_succ_lt_succ hj) hx' hb', Nat.testBit_div_two_pow]
      · congr 1
        rw [Nat.mul_succ]
        omega
      · intro j' hj' hj'k hput
        refine hlast (j' + 1) (by omega) (by omega) ?_
        rwa [(hshift j').1, (hshift j').2]

/-- A write puts the datum in the file by R26. -/
theorem writeFile_fileWritten {w : Nat} {file : List Reg} {base n c : Nat} (i : Nat) (v : BitVec w) (hc : c ≤ 1024)
    (hn : 0 < n) (hlen : base + n ≤ file.length) :
    FileWritten file (writeFile file base n c i v) base n c i v := by
  refine ⟨writeFile_length .., ?_, ?_⟩
  · rintro j x b ⟨hj, hx, hb⟩ hlast
    have hmod := Nat.mod_lt (i + j) hn
    refine (scatter_bit_put (by omega) hc hj hx (by rwa [Nat.mul_comm c j]) ?_).trans ?_
    · intro j' hj' hk hput
      exact hlast j' hj' ⟨hk, by rwa [Nat.mul_comm c j'] at hput⟩
    · rw [Nat.mul_comm c j]
      rfl
  · intro x b h
    exact scatter_bit_kept fun j hj hput => h j ⟨hj, by rwa [Nat.mul_comm c j] at hput⟩

/-- A read takes the datum from the file by R25. -/
theorem readFile_fileRead (file : List Reg) (base n : Nat) {c : Nat} (hc : 0 < c) (w i : Nat) :
    FileRead file base n c i (readFile file base n c w i) := by
  intro b hb
  rw [readFile_bit _ _ _ hc, decide_eq_true hb, Bool.true_and]

/-! ## Widths of machine modes -/

theorem MMode.width_eq_pow (m : MMode) : m.width = 2 ^ (m.code.toNat + 3) := by cases m <;> rfl

theorem MMode.width_le (m : MMode) : m.width ≤ 1024 := by cases m <;> decide

/-- Of two mode widths the smaller divides the greater. -/
theorem MMode.width_le_or_dvd (m g : MMode) : m.width ≤ g.width ∨ g.width ∣ m.width := by
  rw [MMode.width_eq_pow m, MMode.width_eq_pow g]
  obtain h | h := le_total m.code.toNat g.code.toNat
  · exact .inl (Nat.pow_le_pow_right (by decide) (by omega))
  · exact .inr (pow_dvd_pow _ (by omega))

theorem pieces_of_le {w c : Nat} (hw : 0 < w) (h : w ≤ c) : pieces w c = 1 := by
  unfold pieces
  exact Nat.div_eq_of_lt_le (by omega) (by omega)

theorem pieces_mul {q c : Nat} (hc : 0 < c) : pieces (q * c) c = q := by
  unfold pieces
  rw [Nat.add_sub_assoc hc, Nat.mul_comm, Nat.mul_add_div hc, Nat.div_eq_of_lt (by omega), Nat.add_zero]

/-- How many registers a datum of one mode takes where the registers have the width of another (R25). -/
theorem pieces_width (m g : MMode) : pieces m.width g.width = max 1 (m.width / g.width) := by
  have hm := MMode.width_pos m
  have hg := MMode.width_pos g
  obtain h | ⟨q, hq⟩ := MMode.width_le_or_dvd m g
  · rw [pieces_of_le hm h]
    have : m.width / g.width ≤ 1 := Nat.div_le_of_le_mul (by omega)
    omega
  · have hq' : m.width = q * g.width := by rw [hq, Nat.mul_comm]
    have hq0 : 0 < q := Nat.pos_of_ne_zero fun h0 => by simp [h0] at hq'; omega
    rw [hq', pieces_mul hg, Nat.mul_div_cancel _ hg]
    omega

/-- Every part of a datum of one mode has the same width, the smaller one of the datum and the register. -/
theorem part_width {m g : MMode} {j : Nat} (hj : j < pieces m.width g.width) :
    min g.width (m.width - j * g.width) = min m.width g.width := by
  have hm := MMode.width_pos m
  have hg := MMode.width_pos g
  obtain h | ⟨q, hq⟩ := MMode.width_le_or_dvd m g
  · rw [pieces_of_le hm h] at hj
    obtain rfl : j = 0 := by omega
    simp [Nat.min_comm]
  · have hq' : m.width = q * g.width := by rw [hq, Nat.mul_comm]
    rw [hq', pieces_mul hg] at hj
    have h1 : (j + 1) * g.width ≤ m.width := by rw [hq']; exact Nat.mul_le_mul_right _ hj
    rw [Nat.add_mul, Nat.one_mul] at h1
    omega

/-! ## The GPR file -/

/-- A file written in a machine mode whose registers have the width of another one: the registers of the datum. -/
theorem FileWritten.getD_part {m g : MMode} {old new : List Reg} {base n i j b : Nat} {v : BitVec m.width}
    (h : FileWritten old new base n g.width i v) (hj : j < pieces m.width g.width)
    (hlast : ∀ k, j < k → k < pieces m.width g.width → base + (i + k) % n ≠ base + (i + j) % n) :
    (new.getD (base + (i + j) % n) 0).getLsbD b =
      if b < min m.width g.width then v.getLsbD (j * g.width + b)
      else (old.getD (base + (i + j) % n) 0).getLsbD b := by
  obtain ⟨-, hput, hkept⟩ := h
  split
  · next hb =>
    exact hput j _ b ⟨hj, rfl, by rwa [part_width hj]⟩ fun k hk hkput => hlast k hk hkput.1 hkput.2.1
  · next hb =>
    refine hkept _ b fun k hk => hb ?_
    rw [← part_width hk.1]
    exact hk.2.2

/-- Settles O6: reads and writes of the bank are those of a register file whose registers have GPRW bits. -/
theorem gprFile : Obligations.GprFile := by
  intro s i m
  have hg := MMode.width_pos s.cfg.gprw
  refine ⟨fun b hb => ?read, fun v hi hlen => ?write⟩
  case read => exact readFile_fileRead s.gpr s.bankBase s.cfg.ngpr hg m.width i.toNat b hb
  case write =>
    intro cell g parts
    have hparts : pieces m.width g = parts := pieces_width m s.cfg.gprw
    have hw := writeFile_fileWritten i.toNat v (MMode.width_le s.cfg.gprw) (by omega) hlen
    refine ⟨writeFile_length .., fun j hj hlast b _ => ?_, fun x hx => ?_⟩
    · exact hw.getD_part (by rwa [hparts]) fun k hk hkp => hlast k hk (by rwa [hparts] at hkp)
    · exact writeFile_other v fun j hj => hx j (by rwa [hparts] at hj)

/-! ## The special register file -/

theorem append_halves (x : BitVec 64) : x.extractLsb' 32 32 ++ x.extractLsb' 0 32 = x := by
  apply BitVec.eq_of_getLsbD_eq
  intro k hk
  rw [BitVec.getLsbD_append, BitVec.getLsbD_extractLsb', BitVec.getLsbD_extractLsb']
  split <;> simp <;> grind

theorem setWidth_setWidth_word (x : Word) : (x.setWidth 1024).setWidth 32 = x := by
  rw [BitVec.setWidth_setWidth_of_le _ (by decide), BitVec.setWidth_eq]

/-- The register of a slot is the slot (R36). -/
theorem State.getD_spcFile (s : State) {k : Nat} (hk : k < 27) :
    s.spcFile.getD k 0 = (s.spcSlots.getD k 0).setWidth 1024 := by
  have hlen : s.spcSlots.length = 27 := rfl
  rw [State.spcFile, List.getD_eq_getElem _ _ (by simpa [hlen] using hk),
    List.getD_eq_getElem _ _ (by simpa [hlen] using hk), List.getElem_map]

/-- A slot read alone. -/
theorem State.readSpc_slot (s : State) {i : RegNum} (hi : i.toNat < 27) :
    s.readSpc i 32 = s.spcSlots.getD i.toNat 0 := by
  apply BitVec.eq_of_getLsbD_eq
  intro b hb
  rw [State.readSpc, readFile_bit _ _ _ (by decide), decide_eq_true hb, Bool.true_and, Nat.div_eq_of_lt hb,
    Nat.mod_eq_of_lt hb, Nat.add_zero, Nat.zero_add, Nat.mod_eq_of_lt (by exact hi), s.getD_spcFile hi, BitVec.getLsbD_setWidth,
    decide_eq_true (by omega), Bool.true_and]

/-- A 64-bit special register read at once is its two slots. -/
theorem State.readSpc_pair (s : State) {i : RegNum} (hi : i.toNat + 1 < 27) :
    s.readSpc i 64 = s.spcSlots.getD (i.toNat + 1) 0 ++ s.spcSlots.getD i.toNat 0 := by
  rw [State.readSpc, readFile_slot_pair _ hi, s.getD_spcFile hi, s.getD_spcFile (by omega), setWidth_setWidth_word,
    setWidth_setWidth_word]

/-- The slots of a state whose special registers come from a file: those of the file, but for IMP and bit 0 of EXM. -/
theorem State.withSpcFile_slot (s : State) (file : List Reg) {k : Nat} (h2 : 2 ≤ k) (hk : k < 27) :
    (s.withSpcFile file).spcSlots.getD k 0 =
      if k = 6 then setBit ((file.getD k 0).setWidth 32) 0 false else (file.getD k 0).setWidth 32 := by
  have hlo (a b : Word) : (a ++ b).extractLsb' 0 32 = b := by
    apply BitVec.eq_of_getLsbD_eq
    intro i hi
    rw [BitVec.getLsbD_extractLsb', BitVec.getLsbD_append, if_pos (by omega), decide_eq_true hi, Nat.zero_add,
      Bool.true_and]
  have hhi (a b : Word) : (a ++ b).extractLsb' 32 32 = a := by
    apply BitVec.eq_of_getLsbD_eq
    intro i hi
    rw [BitVec.getLsbD_extractLsb', BitVec.getLsbD_append, if_neg (by omega), decide_eq_true hi,
      Nat.add_sub_cancel_left, Bool.true_and]
  have hlo0 (a b : Word) : (setBit (a ++ b) 0 false).extractLsb' 0 32 = setBit b 0 false := by
    apply BitVec.eq_of_getLsbD_eq
    intro i hi
    rw [BitVec.getLsbD_extractLsb', getLsbD_setBit, getLsbD_setBit, BitVec.getLsbD_append, Nat.zero_add, if_pos hi,
      decide_eq_true hi, Bool.true_and, Bool.and_false, Bool.and_false]
  have hhi0 (a b : Word) : (setBit (a ++ b) 0 false).extractLsb' 32 32 = a := by
    apply BitVec.eq_of_getLsbD_eq
    intro i hi
    rw [BitVec.getLsbD_extractLsb', getLsbD_setBit, if_neg (by omega), BitVec.getLsbD_append, if_neg (by omega),
      decide_eq_true hi, Nat.add_sub_cancel_left, Bool.true_and]
  interval_cases k
  -- the slots from 2 to 26 in order: the single words, and the halves of the 64-bit registers, EXM being 6 and 7
  exacts [rfl, rfl, hlo _ _, hhi _ _, hlo0 _ _, hhi0 _ _, hlo _ _, hhi _ _, hlo _ _, hhi _ _, rfl, hlo _ _, hhi _ _,
    rfl, hlo _ _, hhi _ _, hlo _ _, hhi _ _, rfl, hlo _ _, hhi _ _, hlo _ _, hhi _ _, hlo _ _, hhi _ _]

theorem State.writeSpc_slot_bit {w : Nat} (s : State) (i : RegNum) (v : BitVec w) {k : Nat} (h2 : 2 ≤ k) (hk : k < 27)
    {b : Nat} (hb : b < 32) :
    ((s.writeSpc i v).spcSlots.getD k 0).getLsbD b =
      (((writeFile s.spcFile 0 numSpc 32 i.toNat v).getD k 0).getLsbD b && decide (k ≠ 6 ∨ b ≠ 0)) := by
  rw [State.writeSpc, State.withSpcFile_slot _ _ h2 hk]
  split
  · next h6 =>
    rw [getLsbD_setBit]
    by_cases h0 : b = 0
    · simp [h0, h6]
    · simp [h0, hb]
  · next h6 => simp [h6, hb]

/-- Settles O7: the slots are read one or two at a time; a write is one to a file of 27 registers of 32 bits, of which
IMP and bit 0 of EXM are not taken back. -/
theorem specialRegisterFile : Obligations.SpecialRegisterFile := by
  intro s
  refine ⟨?read, fun i m v hi => ?write⟩
  case read =>
    refine ⟨?_, ?_, ?_, ?_, ?_, ?_, ?_, ?_, ?_, ?_, ?_, ?_, ?_, ?_, ?_, ?_, fun k x hx => ?slot⟩
    case slot =>
      obtain ⟨hk, rfl⟩ := List.getElem?_eq_some_iff.1 hx
      have hk27 : k < 27 := hk
      have hnat : (BitVec.ofNat 6 k).toNat = k := by rw [BitVec.toNat_ofNat]; omega
      rw [State.readSpc_slot s (by rw [hnat]; exact hk27), hnat, List.getD_eq_getElem _ _ hk]
    case refine_2 | refine_3 | refine_8 | refine_10 | refine_13 => exact s.readSpc_slot (by decide)
    all_goals exact (s.readSpc_pair (by decide)).trans (append_halves _)
  case write =>
    intro t parts slot
    have hparts : pieces m.width MMode.w.width = parts := pieces_width m .w
    have hw : FileWritten s.spcFile (writeFile s.spcFile 0 27 MMode.w.width i.toNat v) 0 27 MMode.w.width i.toNat v :=
      writeFile_fileWritten i.toNat v (by decide) (by decide) s.spcFile_length.ge
    have hold {k : Nat} (hk : k < 27) {b : Nat} (hb : b < 32) :
        (s.spcFile.getD k 0).getLsbD b = (s.spcSlots.getD k 0).getLsbD b := by
      rw [s.getD_spcFile hk, BitVec.getLsbD_setWidth, decide_eq_true (by omega), Bool.true_and]
    refine ⟨rfl, rfl, rfl, fun k h2 hk hother b hb => ?_, fun j hj h2 hlast b hb => ?_⟩
    · rw [s.writeSpc_slot_bit i v h2 hk hb, ← hold hk hb,
        writeFile_other v fun j hj => by rw [Nat.zero_add]; exact hother j (by rw [← hparts]; exact hj)]
    · have hslot : slot j < 27 := Nat.mod_lt _ (by decide)
      have hpart := hw.getD_part (j := j) (b := b) (by rwa [hparts])
        fun k hk hkp h => hlast k hk (by rwa [hparts] at hkp) (by simpa using h)
      rw [Nat.zero_add] at hpart
      rw [s.writeSpc_slot_bit i v h2 hslot hb, ← hold hslot hb, Nat.mul_comm 32 j]
      exact congrArg (· && _) hpart

end Sys2Proof.Machine

/-! PROOFS of the statements about memory and addresses (20_memory.md R101, R106, R108, 40_data_transfer.md R205): the
bytes of a value under a byte order, accesses without an address map, the effective address modulo `2^PAW`. -/
namespace Sys2Proof.Machine

/-! ## The bytes of a value -/

/-- The place of byte `k` of a value of `n` bytes among its bytes in memory order (R106). -/
def bytePlace (e : Endian) (n k : Nat) : Nat :=
  match e with
  | .little => k
  | .big => n - 1 - k

theorem bytePlace_lt {n k : Nat} (e : Endian) (hk : k < n) : bytePlace e n k < n := by
  cases e
  · exact hk
  · show n - 1 - k < n
    omega

theorem leValue_testBit (bs : List Byte) (b : Nat) :
    (leValue bs).testBit b = (bs.getD (b / 8) 0).getLsbD (b % 8) := by
  induction bs generalizing b with
  | nil => simp [leValue]
  | cons x bs ih =>
    rw [leValue, show x.toNat + 256 * leValue bs = 2 ^ 8 * leValue bs + x.toNat by omega,
      Nat.testBit_two_pow_mul_add _ x.isLt]
    split
    · next h => rw [Nat.div_eq_of_lt h, Nat.mod_eq_of_lt h]; rfl
    · next h =>
      rw [ih, show b / 8 = (b - 8) / 8 + 1 by omega, show (b - 8) % 8 = b % 8 by omega]
      rfl

theorem getD_reverse {bs : List Byte} {k : Nat} (hk : k < bs.length) :
    bs.reverse.getD k 0 = bs.getD (bs.length - 1 - k) 0 := by
  rw [List.getD_eq_getElem _ _ (by simpa using hk), List.getD_eq_getElem _ _ (by omega), List.getElem_reverse]

/-- Byte `k` of the value of some bytes is the byte at its place. -/
theorem extractLsb'_valueOfBytes (e : Endian) {bs : List Byte} {w k : Nat} (hw : w = 8 * bs.length) (hk : k < bs.length) :
    (BitVec.ofNat w (valueOfBytes e bs)).extractLsb' (8 * k) 8 = bs.getD (bytePlace e bs.length k) 0 := by
  have hle (cs : List Byte) : (BitVec.ofNat w (leValue cs)).extractLsb' (8 * k) 8 = cs.getD k 0 := by
    apply BitVec.eq_of_getLsbD_eq
    intro b hb
    rw [BitVec.getLsbD_extractLsb', BitVec.getLsbD_ofNat, leValue_testBit, decide_eq_true hb,
      decide_eq_true (by omega), show (8 * k + b) / 8 = k by omega, show (8 * k + b) % 8 = b by omega]
    rfl
  cases e
  · exact hle bs
  · exact (hle bs.reverse).trans (getD_reverse hk)

theorem getD_leBytes (n v : Nat) {k : Nat} (hk : k < n) : (leBytes n v).getD k 0 = BitVec.ofNat 8 (v / 256 ^ k) := by
  induction n generalizing v k with
  | zero => omega
  | succ n ih =>
    cases k with
    | zero => simp [leBytes]
    | succ k =>
      rw [leBytes, List.getD_cons_succ, ih _ (by omega), Nat.div_div_eq_div_mul, ← pow_succ']

/-- The byte at the place of byte `k` of a value is that byte. -/
theorem getD_bytesOfValue (e : Endian) {w n k : Nat} (v : BitVec w) (hk : k < n) :
    (bytesOfValue e n v.toNat).getD (bytePlace e n k) 0 = v.extractLsb' (8 * k) 8 := by
  have hle : (leBytes n v.toNat).getD k 0 = v.extractLsb' (8 * k) 8 := by
    rw [getD_leBytes n _ hk, BitVec.extractLsb', Nat.shiftRight_eq_div_pow, pow_mul]
    rfl
  cases e
  · exact hle
  · have hplace : bytePlace .big n k = n - 1 - k := rfl
    rw [hplace, bytesOfValue, getD_reverse (by rw [leBytes_length]; omega), leBytes_length,
      show n - 1 - (n - 1 - k) = k by omega, hle]

theorem MMode.eight_mul_bytes (m : MMode) : 8 * (m.width / 8) = m.width := by cases m <;> rfl

theorem two_pow_width (m : MMode) : 256 ^ (m.width / 8) = 2 ^ m.width := by
  rw [show (256 : Nat) = 2 ^ 8 by decide, ← pow_mul, MMode.eight_mul_bytes]

/-! ## Accesses without an address map -/

/-- The bus does not fail the accesses of a kind (R113). -/
def State.BusUp (s : State) (k : AccessKind) : Prop :=
  match k with
  | .fetch => s.fetchFault = false
  | .read | .write => s.dataFault = false

theorem State.phys_of_busUp {s : State} {k : AccessKind} (ht : s.cfg.translation = []) (hk : s.BusUp k) (a : Nat) :
    s.phys k a = some (a % 2 ^ s.cfg.paw) := by
  cases k <;> simp [State.phys, Config.translate, ht, show _ = false from hk]

/-- Without an address map the bytes of an access are at their own addresses, modulo `2^PAW` (R101, R112). -/
theorem State.physRange_of_busUp {s : State} {k : AccessKind} (ht : s.cfg.translation = []) (hk : s.BusUp k) (a n : Nat) :
    s.physRange k a n = some ((List.range n).map fun j => (a + j) % 2 ^ s.cfg.paw) := by
  induction n generalizing a with
  | zero => rfl
  | succ n ih =>
    rw [State.physRange, s.phys_of_busUp ht hk, ih, List.range_succ_eq_map, List.map_cons, List.map_map]
    simp only [Nat.add_zero, Option.some.injEq, List.cons.injEq, true_and]
    refine List.map_congr_left fun j _ => ?_
    show (a + 1 + j) % _ = (a + (j + 1)) % _
    rw [Nat.add_assoc, Nat.add_comm 1 j]

theorem State.memRead_of_busUp {s : State} {k : AccessKind} (ht : s.cfg.translation = []) (hk : s.BusUp k) (a w : Nat) :
    s.memRead k a w = some (BitVec.ofNat w (valueOfBytes s.cfg.endian
      ((List.range (w / 8)).map fun j => memByte s.mem ((a + j) % 2 ^ s.cfg.paw)))) := by
  rw [State.memRead, s.physRange_of_busUp ht hk, Option.map_some, List.map_map]
  rfl

/-- Byte `k` of what an access reads is the byte of memory at its place. -/
theorem State.memRead_byte {s : State} {kind : AccessKind} (ht : s.cfg.translation = []) (hk : s.BusUp kind) (a w : Nat)
    (hw : w = 8 * (w / 8)) : ∃ v, s.memRead kind a w = some v ∧ ∀ k, k < w / 8 →
      v.extractLsb' (8 * k) 8 = memByte s.mem ((a + bytePlace s.cfg.endian (w / 8) k) % 2 ^ s.cfg.paw) := by
  refine ⟨_, s.memRead_of_busUp ht hk a w, fun k hk => ?_⟩
  have hp := bytePlace_lt s.cfg.endian hk
  rw [extractLsb'_valueOfBytes _ (by simpa using hw) (by simpa using hk), List.length_map, List.length_range,
    List.getD_eq_getElem _ _ (by simpa using hp)]
  simp

/-- Consecutive addresses are different modulo a space that holds them. -/
theorem nodup_consecutive (a : Nat) {n top : Nat} (h : n ≤ top) : ((List.range n).map fun j => (a + j) % top).Nodup := by
  refine List.Nodup.map_on (fun x hx y hy hxy => ?_) List.nodup_range
  have hx' := List.mem_range.1 hx
  have hy' := List.mem_range.1 hy
  have hmod : x ≡ y [MOD top] := Nat.ModEq.add_left_cancel' a hxy
  rwa [Nat.ModEq, Nat.mod_eq_of_lt (by omega), Nat.mod_eq_of_lt (by omega)] at hmod

/-- What a store leaves at its addresses and elsewhere, and that a load of them gives the value back. -/
theorem State.memWrite_bytes {s : State} {m : MMode} {a : Nat} (v : BitVec m.width) (ht : s.cfg.translation = [])
    (hd : s.dataFault = false) (hwf : Memory.wf s.mem = true) (hn : m.width / 8 ≤ 2 ^ s.cfg.paw) :
    let place := fun k => (a + bytePlace s.cfg.endian (m.width / 8) k) % 2 ^ s.cfg.paw
    ∃ t, s.memWrite a v = some t ∧ t = { s with mem := t.mem } ∧
      (∀ k, k < m.width / 8 → memByte t.mem (place k) = v.extractLsb' (8 * k) 8) ∧
      (∀ x, (∀ k, k < m.width / 8 → x ≠ place k) → memByte t.mem x = memByte s.mem x) ∧
      t.memRead .read a m.width = some v := by
  intro place
  let ps := (List.range (m.width / 8)).map fun j => (a + j) % 2 ^ s.cfg.paw
  let bytes := bytesOfValue s.cfg.endian (m.width / 8) v.toNat
  have hps : s.physRange .write a (m.width / 8) = some ps := s.physRange_of_busUp (k := .write) ht hd a _
  have hlen : ps.length = bytes.length := by simp [ps, bytes]
  have hmap : ps.map (memByte (memSetAll s.mem ps bytes)) = bytes :=
    map_memByte_memSetAll hwf hlen (nodup_consecutive a hn)
  obtain ⟨mem, hmem⟩ : ∃ mem, mem = memSetAll s.mem ps bytes := ⟨_, rfl⟩
  rw [← hmem] at hmap
  refine ⟨{ s with mem := mem }, by rw [State.memWrite, hps, hmem]; rfl, rfl, fun k hk => ?stored, fun x hx => ?other,
    ?back⟩
  case stored =>
    have hp := bytePlace_lt s.cfg.endian hk
    have hbyte : bytes.getD (bytePlace s.cfg.endian (m.width / 8) k) 0 = v.extractLsb' (8 * k) 8 :=
      getD_bytesOfValue s.cfg.endian v hk
    rw [← hmap, List.getD_eq_getElem _ _ (by simpa [ps] using hp), List.getElem_map] at hbyte
    simpa [ps] using hbyte
  case other =>
    subst hmem
    refine memByte_memSetAll_other _ fun hmem => ?_
    obtain ⟨j, hj, rfl⟩ := List.mem_map.1 hmem
    have hj' := List.mem_range.1 hj
    cases he : s.cfg.endian
    · exact hx j hj' (by simp [place, he, bytePlace])
    · refine hx (m.width / 8 - 1 - j) (by omega) ?_
      simp only [place, he, bytePlace]
      rw [show m.width / 8 - 1 - (m.width / 8 - 1 - j) = j by omega]
  case back =>
    refine (State.memRead_of_busUp (s := { s with mem := mem }) (k := .read) ht hd a m.width).trans (congrArg some ?_)
    apply BitVec.eq_of_toNat_eq
    have hbytes : (List.range (m.width / 8)).map (fun j => memByte mem ((a + j) % 2 ^ s.cfg.paw)) = bytes :=
      (List.map_map.symm : _ = ps.map (memByte mem)).trans hmap
    simp only [hbytes]
    rw [BitVec.toNat_ofNat, valueOfBytes_bytesOfValue, two_pow_width, Nat.mod_mod, Nat.mod_eq_of_lt v.isLt]

/-- Settles O10: a value and its bytes correspond place by place, and an access without an address map goes to
consecutive addresses. -/
theorem memoryByteOrder : Obligations.MemoryByteOrder := by
  refine ⟨fun s m a ht hd => ?data, fun s ht => ⟨fun hf => ?fails, fun hf => ?fetches⟩⟩
  case data =>
    intro n place
    have hplace {k : Nat} (hk : k < n) : place k = (a + bytePlace s.cfg.endian n k) % 2 ^ s.cfg.paw := by
      simp only [place]
      cases s.cfg.endian
      · rfl
      · show (a + n - 1 - k) % _ = (a + (n - 1 - k)) % _
        congr 1
        omega
    obtain ⟨v, hv, hbyte⟩ := s.memRead_byte (kind := .read) ht hd a m.width (MMode.eight_mul_bytes m).symm
    refine ⟨⟨v, hv, fun k hk => by rw [hplace hk]; exact hbyte k hk⟩, fun v hwf hn => ?_⟩
    obtain ⟨t, hw, ht', hat, hother, hback⟩ := s.memWrite_bytes v ht hd hwf hn (a := a)
    exact ⟨t, hw, ht', fun k hk => by rw [hplace hk]; exact hat k hk,
      fun x hx => hother x fun k hk h => hx k hk (h.trans (hplace hk).symm), hback⟩
  case fails => simp [State.fetch, State.memRead, State.physRange, State.phys, hf]
  case fetches =>
    obtain ⟨w, hw, hbyte⟩ := s.memRead_byte (kind := .fetch) ht hf (4 * s.ic.toNat) 32 (by decide)
    refine ⟨w, hw, fun k hk => (hbyte k hk).trans ?_⟩
    cases s.cfg.endian
    · rfl
    · show memByte _ ((4 * s.ic.toNat + (4 - 1 - k)) % _) = memByte _ ((4 * s.ic.toNat + 3 - k) % _)
      congr 2
      omega

/-! ## Effective addresses -/

/-- A sign-extended or truncated number is the number modulo the width. -/
theorem toNat_signExtend {k : Nat} (x : BitVec k) (w : Nat) : ((x.signExtend w).toNat : Int) = x.toInt % 2 ^ w := by
  have hpos : (0 : Int) < 2 ^ w := by positivity
  rw [BitVec.signExtend, BitVec.toNat_ofInt, Int.toNat_of_nonneg (Int.emod_nonneg _ (by push_cast; omega))]
  push_cast
  rfl

/-- A sum in the address width, modulo the address space, is the sum of the numbers modulo the address space. -/
theorem toNat_add_emod {paw w : Nat} (h : paw ≤ w) (x y : BitVec w) :
    (((x + y).toNat % 2 ^ paw : Nat) : Int) = ((x.toNat : Int) + y.toNat) % 2 ^ paw := by
  rw [BitVec.toNat_add, Nat.mod_mod_of_dvd _ (pow_dvd_pow 2 h)]
  push_cast
  rfl

/-- Settles O11: the address is formed in the address width, which holds the address space. -/
theorem effectiveAddress : Obligations.EffectiveAddress := by
  intro s m base idx off hw top b i0 step ea iw
  have hreg (x : BitVec s.cfg.pawm.width) : ((x.toNat % 2 ^ s.cfg.paw : Nat) : Int) = x.toNat % top := by
    push_cast
    rfl
  have hsum (x : BitVec s.cfg.pawm.width) :
      (((s.readGpr base s.cfg.pawm.width + x).toNat % 2 ^ s.cfg.paw : Nat) : Int) = (b + x.toNat) % top :=
    toNat_add_emod hw _ _
  refine ⟨⟨?disp, rfl⟩, ⟨hreg _, rfl⟩, ⟨hreg _, rfl⟩, ⟨hreg _, rfl⟩, ⟨hreg _, rfl⟩, ⟨hreg _, rfl⟩, ⟨hsum _, rfl⟩,
    ⟨hsum _, rfl⟩, ⟨hsum _, rfl⟩, ⟨hsum _, rfl⟩, ⟨hsum _, rfl⟩⟩
  case disp =>
    have hdvd : top ∣ 2 ^ s.cfg.pawm.width := pow_dvd_pow 2 hw
    calc ea (.disp base off) = (b + ((off.signExtend s.cfg.pawm.width).toNat : Int)) % top := hsum _
      _ = (b + off.toInt % 2 ^ s.cfg.pawm.width) % top := by rw [toNat_signExtend]
      _ = (b + off.toInt) % top := by
        rw [Int.add_emod, Int.emod_emod_of_dvd _ hdvd, ← Int.add_emod]

end Sys2Proof.Machine

/-! PROOFS of what an arithmetic/logic instruction can do, once for all of them: its checks are those of R158 and R159,
and one that passes them completes with a result and flags (30_encoding.md R160, 60_exceptions.md R452). -/
namespace Sys2Proof.Machine

/-! ## What an arithmetic/logic instruction writes -/

/-- The write-backs of the arithmetic/logic instruction `i`: flags alone; a result in the GPR file from DESTINATION on,
within the registers R230 gives it; the quotient and the remainder of DIV; a result in the FP file, or in the GPR file in
its place (R311). -/
inductive WriteBack (c : Config) (i : Instr) : (State → State) → Prop
  | flags (f : EstFlags) : WriteBack c i fun t => t.setFlags f
  | gpr {w : Nat} (v : BitVec w) (f : EstFlags) (hw : pieces w c.gprw.width ≤ Instr.resultRegisters c i) :
      WriteBack c i fun t => (t.writeGpr (encodeFields i).dest v).setFlags f
  | gprPair {w : Nat} (j : Nat) (q r : BitVec w) (f : EstFlags)
      (hj : j + pieces w c.gprw.width ≤ Instr.resultRegisters c i) :
      WriteBack c i fun t =>
        ((t.writeGpr (encodeFields i).dest q).writeGprAt (((encodeFields i).dest.toNat + j) % c.ngpr) r).setFlags f
  | fp {w : Nat} (v : BitVec w) (f : EstFlags) (hfp : (encodeFields i).b24 = true) :
      WriteBack c i fun t => (t.writeFp (encodeFields i).dest v).setFlags f
  | fpPart (m : MMode) (v : BitVec m.width) (f : EstFlags) (hfp : (encodeFields i).b24 = true) :
      WriteBack c i fun t => (t.writeFpPart (encodeFields i).dest v).setFlags f

/-- `t` is the end of the instruction `i`: its exceptions are raised and its result is written back (R452). -/
def State.Completes (s : State) (i : Instr) (t : State) : Prop :=
  ∃ mask writeBack, WriteBack s.cfg i writeBack ∧ t = s.complete mask writeBack

/-- `i` runs the checks of an arithmetic/logic instruction and, where it passes them, completes (R160). -/
def State.AluForm (s : State) (i : Instr) : Prop :=
  ∃ body, exec i s = .next (s.checkAlu (Instr.provided s.cfg i) (Instr.registersExist s.cfg i) body) ∧ s.Completes i body

/-! ## Integer instructions -/

/-- The integer arithmetic/logic mnemonics by bit 25 and AUXCODE (R151). -/
def integerMnemonic (u : Bool) (aux : BitVec 4) : Mnemonic :=
  [.add, .sub, .mul, .div, .sl, .sr, if u then .rr else .rl, .and, .nand, .or, .xor, if u then .rb else .sb,
    if u then .rvb else .tb, .mov, .mad, .msu].getD aux.toNat .mov

/-- `i` is an integer instruction with the mnemonic, the mode and DESTINATION given (R148, R151). -/
structure Instr.IsInteger (i : Instr) (mn : Mnemonic) (m : MMode) (d : RegNum) : Prop where
  group : (encodeFields i).group = 0
  integer : (encodeFields i).b24 = false
  mode : (encodeFields i).mmode = m.code
  mnemonic : integerMnemonic (encodeFields i).b25 (encodeFields i).aux = mn
  dest : (encodeFields i).dest = d

/-- `i` is a two-operand one with SOURCE or IMMEDIATE14 as `src` says (R148). -/
structure Instr.IsTwoOperand (i : Instr) (mn : Mnemonic) (m : MMode) (d : RegNum) (src : Src) : Prop
    extends Instr.IsInteger i mn m d where
  source : cond (encodeFields i).b26 [] [(encodeFields i).mid] = Src.regs src
  auxcode : decide ((encodeFields i).aux.toNat < 14) = true

/-- `i` is a three-operand one with SOURCE2 or IMMEDIATE8 as `t` says (R150). -/
structure Instr.IsThreeOperand (i : Instr) (mn : Mnemonic) (m : MMode) (d r : RegNum) (t : Third) : Prop
    extends Instr.IsInteger i mn m d where
  source : (encodeFields i).mid = r
  third : cond (encodeFields i).b26 [] [(encodeFields i).lo] = Third.regs t
  auxcode : decide (14 ≤ (encodeFields i).aux.toNat) = true

theorem Instr.IsInteger.provided_eq {i : Instr} {mn : Mnemonic} {m : MMode} {d : RegNum} (h : Instr.IsInteger i mn m d)
    (c : Config) : Instr.provided c i = c.implements mn m := by
  obtain ⟨hg, hf, hm, hmn, -⟩ := h
  have hmn' : Instr.mnemonic i = mn := by
    rw [← hmn]
    simp [Instr.mnemonic, hg, hf]
    rfl
  simp [Instr.provided, hg, hf, hm, hmn']

theorem Instr.IsTwoOperand.registersExist_eq {i : Instr} {mn : Mnemonic} {m : MMode} {d : RegNum} {src : Src}
    (h : Instr.IsTwoOperand i mn m d src) (s : State) :
    Instr.registersExist s.cfg i = s.gprsExist (d :: Src.regs src) := by
  obtain ⟨⟨hg, hf, -, -, hd⟩, hsrc, haux⟩ := h
  have haux := of_decide_eq_true haux
  rw [← hsrc, ← hd]
  cases hi : (encodeFields i).b26 <;> simp [Instr.registersExist, hg, hf, hi, haux, State.gprsExist]

theorem Instr.IsThreeOperand.registersExist_eq {i : Instr} {mn : Mnemonic} {m : MMode} {d r : RegNum} {t : Third}
    (h : Instr.IsThreeOperand i mn m d r t) (s : State) :
    Instr.registersExist s.cfg i = s.gprsExist (d :: r :: Third.regs t) := by
  obtain ⟨⟨hg, hf, -, -, hd⟩, hr, ht, haux⟩ := h
  have haux := Nat.not_lt.mpr (of_decide_eq_true haux)
  rw [← ht, ← hd, ← hr]
  cases hi : (encodeFields i).b26 <;> simp [Instr.registersExist, hg, hf, hi, haux, State.gprsExist, Bool.and_assoc]

/-- A result of the mode's width fits in the registers of the result, whatever the instruction. -/
theorem Instr.IsInteger.pieces_le {i : Instr} {mn : Mnemonic} {m : MMode} {d : RegNum} (h : Instr.IsInteger i mn m d)
    (c : Config) : pieces m.width c.gprw.width ≤ Instr.resultRegisters c i := by
  have hmono : pieces m.width c.gprw.width ≤ pieces (2 * m.width) c.gprw.width := Nat.div_le_div_right (by omega)
  simp only [Instr.resultRegisters, h.mode, MMode.ofCode_code]
  split
  · exact hmono
  · split <;> omega

/-- The registers of a double-width result. -/
theorem Instr.IsInteger.pieces_double_le {i : Instr} {mn : Mnemonic} {m : MMode} {d : RegNum}
    (h : Instr.IsInteger i mn m d)
    (haux : (encodeFields i).aux = 2 ∨ (encodeFields i).aux = 14 ∨ (encodeFields i).aux = 15) (c : Config) :
    pieces (2 * m.width) c.gprw.width ≤ Instr.resultRegisters c i := by
  simp only [Instr.resultRegisters, h.mode, MMode.ofCode_code, if_pos haux, le_refl]

/-- The registers of the quotient and the remainder. -/
theorem Instr.IsInteger.pieces_pair_le {i : Instr} {mn : Mnemonic} {m : MMode} {d : RegNum} (h : Instr.IsInteger i mn m d)
    (haux : (encodeFields i).aux = 3) (c : Config) :
    max 1 (m.width / c.gprw.width) + pieces m.width c.gprw.width ≤ Instr.resultRegisters c i := by
  simp [Instr.resultRegisters, h.mode, MMode.ofCode_code, haux, pieces_width]
  omega

/-- A two-operand integer instruction whose body completes has the form. -/
theorem State.AluForm.of_integerOp {s : State} {i : Instr} {mn : Mnemonic} {m : MMode} {d : RegNum} {src : Src}
    {body : BitVec m.width → BitVec m.width → State} (h : Instr.IsTwoOperand i mn m d src)
    (hexec : exec i s = .next (s.integerOp mn m d src body)) (hbody : ∀ a b, s.Completes i (body a b)) : s.AluForm i :=
  ⟨_, by rw [h.provided_eq, h.registersExist_eq]; exact hexec, hbody _ _⟩

theorem State.Completes.addSub {s : State} {i : Instr} {mn : Mnemonic} {m : MMode} {d : RegNum}
    (h : Instr.IsInteger i mn m d) (u : Bool) (a b : BitVec m.width) (exact : Int) :
    s.Completes i (s.addSub u d a b exact) := by
  obtain rfl := h.dest
  exact ⟨_, _, .gpr _ _ (h.pieces_le _), rfl⟩

theorem State.Completes.wideResult {s : State} {i : Instr} {mn : Mnemonic} {m : MMode} {d : RegNum}
    (h : Instr.IsInteger i mn m d)
    (haux : (encodeFields i).aux = 2 ∨ (encodeFields i).aux = 14 ∨ (encodeFields i).aux = 15) (u : Bool)
    (a b : BitVec m.width) (exact : Int) : s.Completes i (s.wideResult u d a b exact) := by
  obtain rfl := h.dest
  exact ⟨0, _, .gpr (BitVec.ofInt (2 * m.width) exact) (intFlags (!u) a b (BitVec.ofInt (2 * m.width) exact))
    (h.pieces_double_le haux _), by rw [State.complete_zero]; rfl⟩

/-- An operation without exceptions writes its result and flags and completes. -/
theorem State.Completes.result {s : State} {i : Instr} {mn : Mnemonic} {m : MMode} {d : RegNum}
    (h : Instr.IsInteger i mn m d) (v : BitVec m.width) (f : EstFlags) :
    s.Completes i ((s.writeGpr d v).setFlags f).advance := by
  obtain rfl := h.dest
  exact ⟨0, _, .gpr v f (h.pieces_le _), by rw [State.complete_zero]⟩

theorem State.AluForm.of_logicOp {s : State} {i : Instr} {mn : Mnemonic} {m : MMode} {d : RegNum} {src : Src}
    {f : BitVec m.width → BitVec m.width → BitVec m.width} (h : Instr.IsTwoOperand i mn m d src)
    (hexec : exec i s = .next (s.logicOp mn m d src f)) : s.AluForm i :=
  .of_integerOp h hexec fun _ _ => .result h.toIsInteger _ _

theorem State.AluForm.of_add {s : State} {i : Instr} {m : MMode} {u : Bool} {d : RegNum} {src : Src}
    (h : Instr.IsTwoOperand i .add m d src) (hexec : exec i s = .next (s.add m u d src)) : s.AluForm i :=
  .of_integerOp h hexec fun _ _ => .addSub h.toIsInteger _ _ _ _

theorem State.AluForm.of_sub {s : State} {i : Instr} {m : MMode} {u : Bool} {d : RegNum} {src : Src}
    (h : Instr.IsTwoOperand i .sub m d src) (hexec : exec i s = .next (s.sub m u d src)) : s.AluForm i :=
  .of_integerOp h hexec fun _ _ => .addSub h.toIsInteger _ _ _ _

theorem State.AluForm.of_mul {s : State} {i : Instr} {m : MMode} {u : Bool} {d : RegNum} {src : Src}
    (h : Instr.IsTwoOperand i .mul m d src) (haux : (encodeFields i).aux = 2)
    (hexec : exec i s = .next (s.mul m u d src)) : s.AluForm i :=
  .of_integerOp h hexec fun _ _ => .wideResult h.toIsInteger (.inl haux) _ _ _ _

theorem State.AluForm.of_div {s : State} {i : Instr} {m : MMode} {u : Bool} {d : RegNum} {src : Src}
    (h : Instr.IsTwoOperand i .div m d src) (haux : (encodeFields i).aux = 3)
    (hexec : exec i s = .next (s.div m u d src)) : s.AluForm i := by
  refine .of_integerOp h hexec fun a b => ?_
  obtain rfl := h.dest
  exact ⟨_, _, .gprPair _ _ _ _ (h.pieces_pair_le haux _), rfl⟩

theorem State.AluForm.of_shiftLeftOp {s : State} {i : Instr} {m : MMode} {u : Bool} {d : RegNum} {src : Src}
    (h : Instr.IsTwoOperand i .sl m d src) (hexec : exec i s = .next (s.shiftLeftOp m u d src)) : s.AluForm i := by
  refine .of_integerOp h hexec fun a b => ?_
  obtain rfl := h.dest
  exact ⟨_, _, .gpr _ _ (h.pieces_le _), rfl⟩

theorem State.AluForm.of_bitOp {s : State} {i : Instr} {mn : Mnemonic} {m : MMode} {d : RegNum} {src : Src}
    {f : BitVec m.width → Nat → BitVec m.width} (h : Instr.IsTwoOperand i mn m d src)
    (hexec : exec i s = .next (s.bitOp mn m d src f)) : s.AluForm i := by
  refine .of_integerOp h hexec fun a b => ?_
  split
  · exact ⟨_, _, .flags _, (if_neg (excBit_ne_zero (by decide))).symm⟩
  · exact .result h.toIsInteger _ _

theorem State.AluForm.of_fusedOp {s : State} {i : Instr} {mn : Mnemonic} {m : MMode} {u : Bool} {d r : RegNum}
    {t : Third} {exact : Int → Int → Int → Int} (h : Instr.IsThreeOperand i mn m d r t)
    (haux : (encodeFields i).aux = 2 ∨ (encodeFields i).aux = 14 ∨ (encodeFields i).aux = 15)
    (hexec : exec i s = .next (s.fusedOp mn m u d r t exact)) : s.AluForm i :=
  ⟨_, by rw [h.provided_eq, h.registersExist_eq]; exact hexec, .wideResult h.toIsInteger haux _ _ _ _⟩

/-! ## Floating-point instructions -/

/-- The FP mnemonics by AUXCODE (R151). -/
def fpMnemonic (aux : BitVec 4) : Mnemonic :=
  [.fadd, .fsub, .fmul, .fdiv, .frem, .fcmp, .fsqr, .fabs, .fneg, .frnd, .ff2i, .fi2f, .fext, .fsqz, .fmad,
    .fmsu].getD aux.toNat .mov

/-- `i` is an FP instruction with the mnemonic, the DESTINATION and the register fields given (R148, R153). -/
structure Instr.IsFp (i : Instr) (mn : Mnemonic) (d : RegNum) (rs : List RegNum) : Prop where
  group : (encodeFields i).group = 0
  float : (encodeFields i).b24 = true
  mnemonic : fpMnemonic (encodeFields i).aux = mn
  dest : (encodeFields i).dest = d
  registers : cond (decide (6 ≤ (encodeFields i).aux.toNat ∧ (encodeFields i).aux.toNat ≤ 13)) [(encodeFields i).dest]
    (cond (decide ((encodeFields i).aux.toNat < 14)) [(encodeFields i).dest, (encodeFields i).mid]
      [(encodeFields i).dest, (encodeFields i).mid, (encodeFields i).lo]) = rs

theorem Instr.IsFp.mnemonic_eq {i : Instr} {mn : Mnemonic} {d : RegNum} {rs : List RegNum}
    (h : Instr.IsFp i mn d rs) : Instr.mnemonic i = mn := by
  rw [← h.mnemonic]
  simp [Instr.mnemonic, h.group, h.float]
  rfl

/-- An FP instruction that is no conversion is provided where there is an FPU that has it (R159). -/
theorem Instr.IsFp.provided_eq {i : Instr} {mn : Mnemonic} {d : RegNum} {rs : List RegNum} (h : Instr.IsFp i mn d rs)
    (haux : decide ((encodeFields i).aux.toNat < 10 ∨ 14 ≤ (encodeFields i).aux.toNat) = true) (c : Config) :
    Instr.provided c i = c.implementsFp mn := by
  have haux := of_decide_eq_true haux
  have h₁ : ¬((encodeFields i).aux.toNat = 10 ∨ (encodeFields i).aux.toNat = 11) := by omega
  have h₂ : ¬((encodeFields i).aux.toNat = 12 ∨ (encodeFields i).aux.toNat = 13) := by omega
  simp [Instr.provided, h.group, h.float, h.mnemonic_eq, Config.implementsFp, h₁, h₂]

/-- FF2I and FI2F are provided in the modes the implementation has (R159, R326, R327). -/
theorem Instr.IsFp.provided_convert {i : Instr} {mn : Mnemonic} {d : RegNum} {rs : List RegNum} {m : MMode}
    (h : Instr.IsFp i mn d rs) (hm : (encodeFields i).mmode = m.code)
    (haux : (encodeFields i).aux.toNat = 10 ∨ (encodeFields i).aux.toNat = 11) (c : Config) :
    Instr.provided c i = c.implementsConvert mn m := by
  simp [Instr.provided, h.group, h.float, h.mnemonic_eq, Config.implementsConvert, Config.implementsFp, haux, hm,
    MMode.ofCode_code]

/-- FEXT and FSQZ are provided in the modes whose format the widest one holds (R159, R328). -/
theorem Instr.IsFp.provided_format {i : Instr} {mn : Mnemonic} {d : RegNum} {rs : List RegNum} {m : MMode}
    (h : Instr.IsFp i mn d rs) (hm : (encodeFields i).mmode = m.code)
    (haux : (encodeFields i).aux.toNat = 12 ∨ (encodeFields i).aux.toNat = 13) (c : Config) :
    Instr.provided c i = c.implementsFormat mn m := by
  have h₁ : ¬((encodeFields i).aux.toNat = 10 ∨ (encodeFields i).aux.toNat = 11) := by omega
  simp [Instr.provided, h.group, h.float, h.mnemonic_eq, Config.implementsFormat, Config.implementsConvert,
    Config.implementsFp, h₁, haux, hm, MMode.ofCode_code, Bool.and_assoc]

theorem Instr.IsFp.registersExist_eq {i : Instr} {mn : Mnemonic} {d : RegNum} {rs : List RegNum}
    (h : Instr.IsFp i mn d rs) (s : State) : Instr.registersExist s.cfg i = s.fpsExist rs := by
  have hfp : ∀ x : RegNum, (if s.cfg.fpr.isSome then (s.cfg.fpr.map fun k => decide (x.toNat < k.count)).getD false
      else decide (x.toNat < s.cfg.ngpr)) = decide (x.toNat < Config.fpCount s.cfg) := by
    intro x
    unfold Config.fpCount
    cases s.cfg.fpr <;> simp
  rw [← h.registers]
  simp only [Instr.registersExist, h.group, h.float, hfp]
  by_cases h₁ : 6 ≤ (encodeFields i).aux.toNat ∧ (encodeFields i).aux.toNat ≤ 13
  · have h₂ : (encodeFields i).aux.toNat < 14 := by omega
    simp [h₁, h₂, State.fpsExist]
  · by_cases h₂ : (encodeFields i).aux.toNat < 14 <;> simp [h₁, h₂, State.fpsExist, Bool.and_assoc]

theorem State.Completes.fpFinish {s : State} {i : Instr} {mn : Mnemonic} {d : RegNum} {rs : List RegNum}
    (h : Instr.IsFp i mn d rs) (listed : List Exc) (denormal : Bool) (cmp : EstFlags) (c : FpCalc) :
    s.Completes i (s.fpFinish d listed denormal cmp c) := by
  obtain rfl := h.dest
  exact ⟨_, _, .fp _ _ h.float, rfl⟩

/-- An FP instruction with a result in the widest format, in the modes it is provided in, has the form. -/
theorem State.AluForm.of_fpFinish {s : State} {i : Instr} {mn : Mnemonic} {d : RegNum} {rs : List RegNum} {p : Bool}
    {listed : List Exc} {denormal : Bool} {cmp : EstFlags} {c : FpCalc} (h : Instr.IsFp i mn d rs)
    (hp : Instr.provided s.cfg i = p)
    (hexec : exec i s = .next (s.checkAlu p (s.fpsExist rs) (s.fpFinish d listed denormal cmp c))) : s.AluForm i :=
  ⟨_, by rw [hp, h.registersExist_eq]; exact hexec, .fpFinish h _ _ _ _⟩

theorem State.AluForm.of_fpBinary {s : State} {i : Instr} {mn : Mnemonic} {d r : RegNum} {listed : List Exc}
    {op : FpVal → FpVal → FpCalc} (h : Instr.IsFp i mn d [d, r])
    (haux : decide ((encodeFields i).aux.toNat < 10 ∨ 14 ≤ (encodeFields i).aux.toNat) = true)
    (hexec : exec i s = .next (s.fpBinary mn listed d r op)) : s.AluForm i :=
  .of_fpFinish h (h.provided_eq haux _) hexec

theorem State.AluForm.of_fpUnary {s : State} {i : Instr} {mn : Mnemonic} {d : RegNum} {listed : List Exc}
    {op : FpVal → FpCalc} (h : Instr.IsFp i mn d [d])
    (haux : decide ((encodeFields i).aux.toNat < 10 ∨ 14 ≤ (encodeFields i).aux.toNat) = true)
    (hexec : exec i s = .next (s.fpUnary mn listed d op)) : s.AluForm i :=
  .of_fpFinish h (h.provided_eq haux _) hexec

theorem State.AluForm.of_fpTernary {s : State} {i : Instr} {mn : Mnemonic} {d r r2 : RegNum}
    {op : FpVal → FpVal → FpVal → FpCalc} (h : Instr.IsFp i mn d [d, r, r2])
    (haux : decide ((encodeFields i).aux.toNat < 10 ∨ 14 ≤ (encodeFields i).aux.toNat) = true)
    (hexec : exec i s = .next (s.fpTernary mn d r r2 op)) : s.AluForm i :=
  .of_fpFinish h (h.provided_eq haux _) hexec

theorem aluForm_fcmp (s : State) (d r : RegNum) : s.AluForm (.fcmp d r) := by
  have h : Instr.IsFp (.fcmp d r) .fcmp d [d, r] := ⟨rfl, rfl, rfl, rfl, rfl⟩
  refine ⟨_, by rw [h.provided_eq rfl, h.registersExist_eq]; rfl, _, _, ?_, rfl⟩
  exact .fpPart .h (fcmpFlags s.cfg.fpFmt (s.fpValue d) (s.fpValue r)).bits _ rfl

theorem aluForm_ff2i (s : State) (m : MMode) (u : Bool) (d : RegNum) : s.AluForm (.ff2i m u d) := by
  have h : Instr.IsFp (.ff2i m u d) .ff2i d [d] := ⟨rfl, rfl, rfl, rfl, rfl⟩
  refine ⟨_, by rw [h.provided_convert rfl (.inl rfl), h.registersExist_eq]; rfl, _, _, ?_, rfl⟩
  cases ff2iInvalid u m.width (s.fpToInt (s.fpValue d))
  · exact .fpPart m _ _ rfl
  · exact .flags _

theorem aluForm_fsqz (s : State) (m : MMode) (d : RegNum) : s.AluForm (.fsqz m d) := by
  have h : Instr.IsFp (.fsqz m d) .fsqz d [d] := ⟨rfl, rfl, rfl, rfl, rfl⟩
  refine ⟨_, by rw [h.provided_format rfl (.inr rfl), h.registersExist_eq]; rfl, _, _, ?_, rfl⟩
  exact .fpPart m _ _ rfl

/-! ## Every arithmetic/logic instruction -/

/-- Every arithmetic/logic instruction runs the checks of R160 and completes where it passes them. -/
theorem aluForm_of_isAlu {i : Instr} (hi : Instr.isAlu i = true) (s : State) : s.AluForm i := by
  cases i
  case addR m u d r => exact .of_add (src := .reg r) ⟨⟨rfl, rfl, rfl, rfl, rfl⟩, rfl, rfl⟩ rfl
  case addI m u d x => exact .of_add (src := .imm u x) ⟨⟨rfl, rfl, rfl, rfl, rfl⟩, rfl, rfl⟩ rfl
  case subR m u d r => exact .of_sub (src := .reg r) ⟨⟨rfl, rfl, rfl, rfl, rfl⟩, rfl, rfl⟩ rfl
  case subI m u d x => exact .of_sub (src := .imm u x) ⟨⟨rfl, rfl, rfl, rfl, rfl⟩, rfl, rfl⟩ rfl
  case mulR m u d r => exact .of_mul (src := .reg r) ⟨⟨rfl, rfl, rfl, rfl, rfl⟩, rfl, rfl⟩ rfl rfl
  case mulI m u d x => exact .of_mul (src := .imm u x) ⟨⟨rfl, rfl, rfl, rfl, rfl⟩, rfl, rfl⟩ rfl rfl
  case divR m u d r => exact .of_div (src := .reg r) ⟨⟨rfl, rfl, rfl, rfl, rfl⟩, rfl, rfl⟩ rfl rfl
  case divI m u d x => exact .of_div (src := .imm u x) ⟨⟨rfl, rfl, rfl, rfl, rfl⟩, rfl, rfl⟩ rfl rfl
  case slR m u d r => exact .of_shiftLeftOp (src := .reg r) ⟨⟨rfl, rfl, rfl, rfl, rfl⟩, rfl, rfl⟩ rfl
  case slI m u d x => exact .of_shiftLeftOp (src := .imm u x) ⟨⟨rfl, rfl, rfl, rfl, rfl⟩, rfl, rfl⟩ rfl
  case srR m u d r => exact .of_logicOp (src := .reg r) ⟨⟨rfl, rfl, rfl, rfl, rfl⟩, rfl, rfl⟩ rfl
  case srI m u d x => exact .of_logicOp (src := .imm u x) ⟨⟨rfl, rfl, rfl, rfl, rfl⟩, rfl, rfl⟩ rfl
  case rlR m d r => exact .of_logicOp (src := .reg r) ⟨⟨rfl, rfl, rfl, rfl, rfl⟩, rfl, rfl⟩ rfl
  case rlI m d x => exact .of_logicOp (src := .imm false x) ⟨⟨rfl, rfl, rfl, rfl, rfl⟩, rfl, rfl⟩ rfl
  case rrR m d r => exact .of_logicOp (src := .reg r) ⟨⟨rfl, rfl, rfl, rfl, rfl⟩, rfl, rfl⟩ rfl
  case rrI m d x => exact .of_logicOp (src := .imm true x) ⟨⟨rfl, rfl, rfl, rfl, rfl⟩, rfl, rfl⟩ rfl
  case andR m d r => exact .of_logicOp (src := .reg r) ⟨⟨rfl, rfl, rfl, rfl, rfl⟩, rfl, rfl⟩ rfl
  case andI m u d x => exact .of_logicOp (src := .imm u x) ⟨⟨rfl, rfl, rfl, rfl, rfl⟩, rfl, rfl⟩ rfl
  case nandR m d r => exact .of_logicOp (src := .reg r) ⟨⟨rfl, rfl, rfl, rfl, rfl⟩, rfl, rfl⟩ rfl
  case nandI m u d x => exact .of_logicOp (src := .imm u x) ⟨⟨rfl, rfl, rfl, rfl, rfl⟩, rfl, rfl⟩ rfl
  case orR m d r => exact .of_logicOp (src := .reg r) ⟨⟨rfl, rfl, rfl, rfl, rfl⟩, rfl, rfl⟩ rfl
  case orI m u d x => exact .of_logicOp (src := .imm u x) ⟨⟨rfl, rfl, rfl, rfl, rfl⟩, rfl, rfl⟩ rfl
  case xorR m d r => exact .of_logicOp (src := .reg r) ⟨⟨rfl, rfl, rfl, rfl, rfl⟩, rfl, rfl⟩ rfl
  case xorI m u d x => exact .of_logicOp (src := .imm u x) ⟨⟨rfl, rfl, rfl, rfl, rfl⟩, rfl, rfl⟩ rfl
  case sbR m d r => exact .of_bitOp (src := .reg r) ⟨⟨rfl, rfl, rfl, rfl, rfl⟩, rfl, rfl⟩ rfl
  case sbI m d x => exact .of_bitOp (src := .imm false x) ⟨⟨rfl, rfl, rfl, rfl, rfl⟩, rfl, rfl⟩ rfl
  case rbR m d r => exact .of_bitOp (src := .reg r) ⟨⟨rfl, rfl, rfl, rfl, rfl⟩, rfl, rfl⟩ rfl
  case rbI m d x => exact .of_bitOp (src := .imm true x) ⟨⟨rfl, rfl, rfl, rfl, rfl⟩, rfl, rfl⟩ rfl
  case tbR m d r => exact .of_bitOp (src := .reg r) ⟨⟨rfl, rfl, rfl, rfl, rfl⟩, rfl, rfl⟩ rfl
  case tbI m d x => exact .of_bitOp (src := .imm false x) ⟨⟨rfl, rfl, rfl, rfl, rfl⟩, rfl, rfl⟩ rfl
  case rvbR m d r => exact .of_bitOp (src := .reg r) ⟨⟨rfl, rfl, rfl, rfl, rfl⟩, rfl, rfl⟩ rfl
  case rvbI m d x => exact .of_bitOp (src := .imm true x) ⟨⟨rfl, rfl, rfl, rfl, rfl⟩, rfl, rfl⟩ rfl
  case madR m u d r r2 =>
    exact .of_fusedOp (t := .reg r2) ⟨⟨rfl, rfl, rfl, rfl, rfl⟩, rfl, rfl, rfl⟩ (.inr (.inl rfl)) rfl
  case madI m u d r x =>
    exact .of_fusedOp (t := .imm x) ⟨⟨rfl, rfl, rfl, rfl, rfl⟩, rfl, rfl, rfl⟩ (.inr (.inl rfl)) rfl
  case msuR m u d r r2 =>
    exact .of_fusedOp (t := .reg r2) ⟨⟨rfl, rfl, rfl, rfl, rfl⟩, rfl, rfl, rfl⟩ (.inr (.inr rfl)) rfl
  case msuI m u d r x =>
    exact .of_fusedOp (t := .imm x) ⟨⟨rfl, rfl, rfl, rfl, rfl⟩, rfl, rfl, rfl⟩ (.inr (.inr rfl)) rfl
  case fadd d r => exact .of_fpBinary (r := r) ⟨rfl, rfl, rfl, rfl, rfl⟩ rfl rfl
  case fsub d r => exact .of_fpBinary (r := r) ⟨rfl, rfl, rfl, rfl, rfl⟩ rfl rfl
  case fmul d r => exact .of_fpBinary (r := r) ⟨rfl, rfl, rfl, rfl, rfl⟩ rfl rfl
  case fdiv d r => exact .of_fpBinary (r := r) ⟨rfl, rfl, rfl, rfl, rfl⟩ rfl rfl
  case frem d r => exact .of_fpBinary (r := r) ⟨rfl, rfl, rfl, rfl, rfl⟩ rfl rfl
  case fcmp d r => exact aluForm_fcmp s d r
  case fsqr d => exact .of_fpUnary ⟨rfl, rfl, rfl, rfl, rfl⟩ rfl rfl
  case fabs d => exact .of_fpUnary ⟨rfl, rfl, rfl, rfl, rfl⟩ rfl rfl
  case fneg d => exact .of_fpUnary ⟨rfl, rfl, rfl, rfl, rfl⟩ rfl rfl
  case frnd d => exact .of_fpUnary ⟨rfl, rfl, rfl, rfl, rfl⟩ rfl rfl
  case fmad d r r2 => exact .of_fpTernary (r := r) (r2 := r2) ⟨rfl, rfl, rfl, rfl, rfl⟩ rfl rfl
  case fmsu d r r2 => exact .of_fpTernary (r := r) (r2 := r2) ⟨rfl, rfl, rfl, rfl, rfl⟩ rfl rfl
  case ff2i m u d => exact aluForm_ff2i s m u d
  case fi2f m u d =>
    have h : Instr.IsFp (.fi2f m u d) .fi2f d [d] := ⟨rfl, rfl, rfl, rfl, rfl⟩
    exact .of_fpFinish h (h.provided_convert rfl (.inr rfl) _) rfl
  case fext m d =>
    have h : Instr.IsFp (.fext m d) .fext d [d] := ⟨rfl, rfl, rfl, rfl, rfl⟩
    exact .of_fpFinish h (h.provided_format rfl (.inl rfl) _) rfl
  case fsqz m d => exact aluForm_fsqz s m d
  all_goals exact Bool.noConfusion (show false = true from hi)

end Sys2Proof.Machine

/-! PROOFS of what a data transfer and a control instruction can do, once for all of them: the checks of R158 and R159,
and what each form does where it passes them (30_encoding.md R160). -/
namespace Sys2Proof.Machine

/-! ## Data transfers -/

/-- `i` runs the checks of a transfer or control instruction, and has an outcome with the property where it passes them
(R160). -/
def State.Runs (s : State) (i : Instr) (outcome : State → Prop) : Prop :=
  ∃ body, exec i s = .next (s.checkOther (Instr.provided s.cfg i) (Instr.registersExist s.cfg i) body) ∧
    (Instr.registersExist s.cfg i = true → outcome body)

theorem State.Runs.imp {s : State} {i : Instr} {p q : State → Prop} (h : s.Runs i p) (hpq : ∀ t, p t → q t) :
    s.Runs i q := by
  obtain ⟨body, he, hp⟩ := h
  exact ⟨body, he, fun hr => hpq body (hp hr)⟩

/-- What such an instruction does: it is skipped by an exception of the checks, or has its outcome. -/
theorem State.Runs.exec_cases {s t : State} {i : Instr} {outcome : State → Prop} (h : s.Runs i outcome)
    (he : exec i s = .next t) : (∃ n, n < 64 ∧ t = s.skipped n) ∨ outcome t := by
  obtain ⟨body, hexec, hbody⟩ := h
  rw [hexec, Host.Outcome.next.injEq] at he
  rcases s.checkOther_cases (Instr.provided s.cfg i) (Instr.registersExist s.cfg i) body with
    ⟨-, hr, h⟩ | ⟨-, -, h⟩ | ⟨-, h⟩
  · obtain rfl : t = body := he.symm.trans h
    exact .inr (hbody hr)
  · exact .inl ⟨6, by decide, he.symm.trans h⟩
  · exact .inl ⟨5, by decide, he.symm.trans h⟩

/-- What a load does after its checks: a failing access (60_exceptions.md R475), or the index and the data are written
(R203, R206, R207). -/
inductive LoadOutcome (s : State) (locked : Bool) (m : MMode) (d : RegNum) (x : Addr) : State → Prop
  | failed : LoadOutcome s locked m d x s.dBusError
  | loaded (v : BitVec m.width) (ps : List Nat) (hps : s.physRange .read (s.effective m x) m.bytes = some ps) :
      LoadOutcome s locked m d x
        { ((s.applyIndex (s.indexWrite m x)).writeGpr d v) with
          resv := if locked then some ⟨s.effective m x, m.bytes, ps⟩ else s.resv }.advance

/-- What a plain store does after its checks (R202, R204, R475). -/
inductive StoreOutcome (s : State) (m : MMode) (x : Addr) : State → Prop
  | failed : StoreOutcome s m x s.dBusError
  | stored (ps : List Nat) (bs : List Byte) (hps : s.physRange .write (s.effective m x) (m.width / 8) = some ps) :
      StoreOutcome s m x ({ s with mem := memSetAll s.mem ps bs }.applyIndex (s.indexWrite m x)).advance

/-- What a store-conditional does after its checks (R208, R475). -/
inductive StoreCondOutcome (s : State) (m : MMode) (d : RegNum) (x : Addr) : State → Prop
  | failed : StoreCondOutcome s m d x s.dBusError
  | stored (ps : List Nat) (bs : List Byte) (hps : s.physRange .write (s.effective m x) (m.width / 8) = some ps) :
      StoreCondOutcome s m d x
        (({ s with mem := memSetAll s.mem ps bs, resv := none }.applyIndex (s.indexWrite m x)).writeGpr d
          (1 : BitVec m.width)).advance
  | refused :
      StoreCondOutcome s m d x
        (({ s with resv := none }.applyIndex (s.indexWrite m x)).writeGpr d (0 : BitVec m.width)).advance

/-- A transfer to the GPR file writes DESTINATION (R209, R210, R212, R214, R216). -/
def GprOutcome (s : State) (m : MMode) (d : RegNum) (t : State) : Prop :=
  ∃ v : BitVec m.width, t = (s.writeGpr d v).advance

/-- A transfer to the special registers is refused by a check, or writes them (R211). -/
inductive SpcOutcome (s : State) (m : MMode) (d r : RegNum) : State → Prop
  | refused (n : Nat) (hn : n < 64) : SpcOutcome s m d r (s.skipped n)
  | written (hd : d.toNat < 27) (huser : s.systemMode = false → ∀ k ∈ spcTouched d m.width, userWritable k = true)
      (hbank : 15 ∈ spcTouched d m.width → s.badBank (s.writeSpc d (s.readGpr r m.width)).scr = false) :
      SpcOutcome s m d r ((s.writeSpc d (s.readGpr r m.width)).afterSpcWrite (spcTouched d m.width))

/-- A transfer to the DSP file (R213). -/
def DspOutcome (s : State) (m : MMode) (d r : RegNum) (t : State) : Prop :=
  ∃ f, s.cfg.dsp = some f ∧ t = (s.writeDsp f d (s.readGpr r m.width)).advance

/-- A transfer to the FP file (R215). -/
def FprOutcome (s : State) (m : MMode) (d r : RegNum) (t : State) : Prop :=
  ∃ f, s.cfg.fpr = some f ∧ t = (s.writeFpr f d (s.readGpr r m.width)).advance

theorem exec_load (s : State) (locked : Bool) (m : MMode) (d : RegNum) (x : Addr) :
    exec (.load locked m d x) s = .next (s.load locked m d x) := by
  cases locked <;> rcases x with _ | ⟨_, u⟩ | ⟨_, _, u⟩ <;> (try cases u) <;> rfl

theorem exec_store (s : State) (m : MMode) (d : RegNum) (x : Addr) :
    exec (.store false m d x) s = .next (s.store m d x) := by
  rcases x with _ | ⟨_, u⟩ | ⟨_, _, u⟩ <;> (try cases u) <;> rfl

theorem exec_storeCond (s : State) (m : MMode) (d : RegNum) (x : Addr) :
    exec (.store true m d x) s = .next (s.storeCond m d x) := by
  rcases x with _ | ⟨_, u⟩ | ⟨_, _, u⟩ <;> (try cases u) <;> rfl

/-- A transfer is provided up to MAXXFER (R159, R217). -/
theorem provided_transfer {i : Instr} {m : MMode} (hg : (encodeFields i).group.getLsbD 1 = true)
    (hm : (encodeFields i).mmode = m.code) (s : State) : Instr.provided s.cfg i = s.transferOk m := by
  simp only [Instr.provided, hg, hm, MMode.ofCode_code, if_true, State.transferOk, MMode.le]

/-- Bit 31 of a transfer word is 1 (R140). -/
theorem group_transfer (l : Bool) : (BitVec.ofBool true ++ BitVec.ofBool l).getLsbD 1 = true := by cases l <;> decide

theorem memoryFields_group (l atomic : Bool) (m : MMode) (d : RegNum) (x : Addr) :
    (memoryFields l atomic m d x).group.getLsbD 1 = true := by
  rcases x with _ | _ | _ <;> exact group_transfer l

theorem memoryFields_mmode (l atomic : Bool) (m : MMode) (d : RegNum) (x : Addr) :
    (memoryFields l atomic m d x).mmode = m.code := by
  rcases x with _ | _ | _ <;> rfl

/-- The registers of a load or a store are DESTINATION and those of its addressing form (R158). -/
theorem registersExist_memoryFields {i : Instr} {l atomic : Bool} {m : MMode} {d : RegNum} {x : Addr}
    (h : encodeFields i = memoryFields l atomic m d x) (s : State) :
    Instr.registersExist s.cfg i = s.gprsExist (d :: Addr.regs x) := by
  have hg := memoryFields_group l atomic m d x
  simp only [Instr.registersExist, h, hg, if_true]
  rcases x with ⟨base, off⟩ | ⟨idx, u⟩ | ⟨base, idx, u⟩
  · simp [memoryFields, dispFields, transferFields, State.gprsExist, Addr.regs]
  · cases u <;> simp [memoryFields, regFields, Update.code, transferFields, State.gprsExist, Addr.regs]
  · cases u <;> simp [memoryFields, idxFields, Update.code, transferFields, State.gprsExist, Addr.regs, Bool.and_comm]

/-- What a load does after its checks. -/
theorem State.runs_load (s : State) (locked : Bool) (m : MMode) (d : RegNum) (x : Addr) :
    s.Runs (.load locked m d x) (LoadOutcome s locked m d x) := by
  have hf := encodeFields_load locked m d x
  refine ⟨_, by
    rw [registersExist_memoryFields hf, provided_transfer (m := m) (by rw [hf]; exact memoryFields_group ..)
      (by rw [hf]; exact memoryFields_mmode ..), exec_load]; rfl, fun _ => ?_⟩
  dsimp only
  split
  · next v ps _ hps => simpa using LoadOutcome.loaded (locked := locked) (d := d) v ps hps
  · exact .failed

/-- What a plain store does after its checks. -/
theorem State.runs_store (s : State) (m : MMode) (d : RegNum) (x : Addr) :
    s.Runs (.store false m d x) (StoreOutcome s m x) := by
  have hf := encodeFields_store false m d x
  refine ⟨_, by
    rw [registersExist_memoryFields hf, provided_transfer (m := m) (by rw [hf]; exact memoryFields_group ..)
      (by rw [hf]; exact memoryFields_mmode ..), exec_store]; rfl, fun _ => ?_⟩
  split
  · next t h =>
    obtain ⟨ps, hps, rfl⟩ := State.memWrite_cases h
    exact .stored ps _ hps
  · exact .failed

/-- What a store-conditional does after its checks. -/
theorem State.runs_storeCond (s : State) (m : MMode) (d : RegNum) (x : Addr) :
    s.Runs (.store true m d x) (StoreCondOutcome s m d x) := by
  have hf := encodeFields_store true m d x
  refine ⟨_, by
    rw [registersExist_memoryFields hf, provided_transfer (m := m) (by rw [hf]; exact memoryFields_group ..)
      (by rw [hf]; exact memoryFields_mmode ..), exec_storeCond]; rfl, fun _ => ?_⟩
  dsimp only
  split
  · split
    · next t h =>
      obtain ⟨ps, hps, rfl⟩ := State.memWrite_cases h
      exact .stored ps _ hps
    · exact .failed
  · exact .refused

/-- The transfers to the GPR file: from the GPR, special, DSP and FP registers, and the load immediate. -/
theorem runs_movRegReg (s : State) (m : MMode) (d r : RegNum) : s.Runs (.movRegReg m d r) (GprOutcome s m d) := by
  have hg : (encodeFields (.movRegReg m d r)).group.getLsbD 1 = true := group_transfer true
  have hr : Instr.registersExist s.cfg (.movRegReg m d r) = s.gprsExist [d, r] := by
    simp only [Instr.registersExist, hg, if_true]
    simp [encodeFields, transferFields, State.gprsExist]
  exact ⟨_, by rw [hr, provided_transfer (m := m) hg rfl]; rfl, fun _ => ⟨_, rfl⟩⟩

theorem runs_movRegSpc (s : State) (m : MMode) (d r : RegNum) : s.Runs (.movRegSpc m d r) (GprOutcome s m d) := by
  have hg : (encodeFields (.movRegSpc m d r)).group.getLsbD 1 = true := group_transfer true
  have hr : Instr.registersExist s.cfg (.movRegSpc m d r) = (s.gprsExist [d] && decide (r.toNat < 27)) := by
    simp only [Instr.registersExist, hg, if_true]
    simp [encodeFields, transferFields, State.gprsExist]
  exact ⟨_, by rw [hr, provided_transfer (m := m) hg rfl]; rfl, fun _ => ⟨_, rfl⟩⟩

/-- A transfer to the special registers is checked for its mode, for read-only slots and for the bank (R211). -/
theorem runs_movSpcReg (s : State) (m : MMode) (d r : RegNum) : s.Runs (.movSpcReg m d r) (SpcOutcome s m d r) := by
  have hg : (encodeFields (.movSpcReg m d r)).group.getLsbD 1 = true := group_transfer true
  have hr : Instr.registersExist s.cfg (.movSpcReg m d r) = (decide (d.toNat < 27) && s.gprsExist [r]) := by
    simp only [Instr.registersExist, hg, if_true]
    simp [encodeFields, transferFields, State.gprsExist]
  refine ⟨_, by rw [hr, provided_transfer (m := m) hg rfl]; rfl, fun h => ?_⟩
  rw [hr, Bool.and_eq_true, decide_eq_true_iff] at h
  dsimp only
  simp only [State.raiseSkip_eq_skipped]
  split
  · exact .refused _ (by decide)
  · next huser =>
    split
    · exact .refused _ (by decide)
    · split
      · exact .refused _ (by decide)
      · next hbank =>
        refine .written h.1 (fun hs k hk => ?_) fun h15 => ?_
        · simp [hs] at huser
          exact huser k hk
        · simpa [h15] using hbank

theorem runs_movRegDsp (s : State) (m : MMode) (d r : RegNum) : s.Runs (.movRegDsp m d r) (GprOutcome s m d) := by
  have hg : (encodeFields (.movRegDsp m d r)).group.getLsbD 1 = true := group_transfer true
  have hr : Instr.registersExist s.cfg (.movRegDsp m d r) =
      (s.gprsExist [d] && (s.cfg.dsp.map fun k => decide (r.toNat < k.count)).getD false) := by
    simp only [Instr.registersExist, hg, if_true]
    simp [encodeFields, transferFields, State.gprsExist]
  cases hf : s.cfg.dsp with
  | none =>
    rw [hf] at hr
    exact ⟨s, by rw [hr, provided_transfer (m := m) hg rfl]; simp [exec, execMovRegDsp, State.movRegDsp, hf],
      fun h => by simp [hr] at h⟩
  | some f =>
    rw [hf] at hr
    exact ⟨_, by rw [hr, provided_transfer (m := m) hg rfl]; simp only [exec, execMovRegDsp, State.movRegDsp, hf]; rfl,
      fun _ => ⟨_, rfl⟩⟩

theorem runs_movDspReg (s : State) (m : MMode) (d r : RegNum) : s.Runs (.movDspReg m d r) (DspOutcome s m d r) := by
  have hg : (encodeFields (.movDspReg m d r)).group.getLsbD 1 = true := group_transfer true
  have hr : Instr.registersExist s.cfg (.movDspReg m d r) =
      ((s.cfg.dsp.map fun k => decide (d.toNat < k.count)).getD false && s.gprsExist [r]) := by
    simp only [Instr.registersExist, hg, if_true]
    simp [encodeFields, transferFields, State.gprsExist]
  cases hf : s.cfg.dsp with
  | none =>
    rw [hf] at hr
    exact ⟨s, by rw [hr, provided_transfer (m := m) hg rfl]; simp [exec, execMovDspReg, State.movDspReg, hf],
      fun h => by simp [hr] at h⟩
  | some f =>
    rw [hf] at hr
    exact ⟨_, by rw [hr, provided_transfer (m := m) hg rfl]; simp only [exec, execMovDspReg, State.movDspReg, hf]; rfl,
      fun _ => ⟨f, hf, rfl⟩⟩

theorem runs_movRegFpr (s : State) (m : MMode) (d r : RegNum) : s.Runs (.movRegFpr m d r) (GprOutcome s m d) := by
  have hg : (encodeFields (.movRegFpr m d r)).group.getLsbD 1 = true := group_transfer true
  have hr : Instr.registersExist s.cfg (.movRegFpr m d r) =
      (s.gprsExist [d] && (s.cfg.fpr.map fun k => decide (r.toNat < k.count)).getD false) := by
    simp only [Instr.registersExist, hg, if_true]
    simp [encodeFields, transferFields, State.gprsExist]
  cases hf : s.cfg.fpr with
  | none =>
    rw [hf] at hr
    exact ⟨s, by rw [hr, provided_transfer (m := m) hg rfl]; simp [exec, execMovRegFpr, State.movRegFpr, hf],
      fun h => by simp [hr] at h⟩
  | some f =>
    rw [hf] at hr
    exact ⟨_, by rw [hr, provided_transfer (m := m) hg rfl]; simp only [exec, execMovRegFpr, State.movRegFpr, hf]; rfl,
      fun _ => ⟨_, rfl⟩⟩

theorem runs_movFprReg (s : State) (m : MMode) (d r : RegNum) : s.Runs (.movFprReg m d r) (FprOutcome s m d r) := by
  have hg : (encodeFields (.movFprReg m d r)).group.getLsbD 1 = true := group_transfer true
  have hr : Instr.registersExist s.cfg (.movFprReg m d r) =
      ((s.cfg.fpr.map fun k => decide (d.toNat < k.count)).getD false && s.gprsExist [r]) := by
    simp only [Instr.registersExist, hg, if_true]
    simp [encodeFields, transferFields, State.gprsExist]
  cases hf : s.cfg.fpr with
  | none =>
    rw [hf] at hr
    exact ⟨s, by rw [hr, provided_transfer (m := m) hg rfl]; simp [exec, execMovFprReg, State.movFprReg, hf],
      fun h => by simp [hr] at h⟩
  | some f =>
    rw [hf] at hr
    exact ⟨_, by rw [hr, provided_transfer (m := m) hg rfl]; simp only [exec, execMovFprReg, State.movFprReg, hf]; rfl,
      fun _ => ⟨f, hf, rfl⟩⟩

theorem runs_movImm (s : State) (m : MMode) (u : Bool) (d : RegNum) (x : BitVec 18) :
    s.Runs (.movImm m u d x) (GprOutcome s m d) := by
  have hg : (encodeFields (.movImm m u d x)).group.getLsbD 1 = true := group_transfer true
  have hr : Instr.registersExist s.cfg (.movImm m u d x) = s.gprsExist [d] := by
    simp only [Instr.registersExist, hg, if_true]
    simp [encodeFields, transferFields, State.gprsExist]
  exact ⟨_, by rw [hr, provided_transfer (m := m) hg rfl]; rfl, fun _ => ⟨_, rfl⟩⟩

/-- What a data transfer does after its checks, by its form. -/
inductive TransferOutcome (s t : State) : Instr → Prop
  | load {locked m d x} (h : LoadOutcome s locked m d x t) : TransferOutcome s t (.load locked m d x)
  | store {m d x} (h : StoreOutcome s m x t) : TransferOutcome s t (.store false m d x)
  | storeCond {m d x} (h : StoreCondOutcome s m d x t) : TransferOutcome s t (.store true m d x)
  | gpr {i : Instr} {m d} (h : GprOutcome s m d t) : TransferOutcome s t i
  | spc {m d r} (h : SpcOutcome s m d r t) : TransferOutcome s t (.movSpcReg m d r)
  | dsp {m d r} (h : DspOutcome s m d r t) : TransferOutcome s t (.movDspReg m d r)
  | fpr {m d r} (h : FprOutcome s m d r t) : TransferOutcome s t (.movFprReg m d r)

/-- Every data transfer runs the checks of R160 and has one of its outcomes where it passes them. -/
theorem runs_of_transferForm {i : Instr} (hi : i.TransferForm) (s : State) :
    s.Runs i fun t => TransferOutcome s t i := by
  cases hi with
  | load locked m d x => exact (s.runs_load locked m d x).imp fun _ => .load
  | store atomic m d x =>
    cases atomic
    exacts [(s.runs_store m d x).imp fun _ => .store, (s.runs_storeCond m d x).imp fun _ => .storeCond]
  | regReg m d r => exact (runs_movRegReg s m d r).imp fun _ => .gpr
  | regSpc m d r => exact (runs_movRegSpc s m d r).imp fun _ => .gpr
  | spcReg m d r => exact (runs_movSpcReg s m d r).imp fun _ => .spc
  | regDsp m d r => exact (runs_movRegDsp s m d r).imp fun _ => .gpr
  | dspReg m d r => exact (runs_movDspReg s m d r).imp fun _ => .dsp
  | regFpr m d r => exact (runs_movRegFpr s m d r).imp fun _ => .gpr
  | fprReg m d r => exact (runs_movFprReg s m d r).imp fun _ => .fpr
  | imm m u d x => exact (runs_movImm s m u d x).imp fun _ => .gpr

/-! ## Control instructions -/

/-- What a control instruction does after its checks (47_program_transfer.md, 48_return_wait.md). -/
inductive ControlOutcome (s : State) (i : Instr) : State → Prop
  | transferred (a p : Bool) (value : BitVec 64) (haux : (encodeFields i).aux ≠ 13) :
      ControlOutcome s i (s.transfer a p value)
  | notTaken (haux : (encodeFields i).aux ≠ 13) : ControlOutcome s i s.advance
  | returned (p : Bool) : ControlOutcome s i { s with ic := s.returnIc s.crp p }
  | left (h : Handler) (p : Bool) (hs : h = .interrupt ∨ s.systemMode = true) (haux : (encodeFields i).aux = 13) :
      ControlOutcome s i (s.leave h p)
  | leftExceptionWith (p : Bool) (scr : Word) (hs : s.systemMode = true) (hb : s.badBank scr = false)
      (haux : (encodeFields i).aux = 13) : ControlOutcome s i (s.leaveExceptionWith p scr)
  | leftNmiWith (p : Bool) (scr : Word) (hs : s.systemMode = true) (hb : s.badBank scr = false)
      (haux : (encodeFields i).aux = 13) : ControlOutcome s i (s.leaveNmiWith p scr)
  /-- A return that a check of the mode or the bank refuses (60_exceptions.md R460, R461). -/
  | refused (n : Nat) (hn : n < 64) : ControlOutcome s i (s.skipped n)
  | paused (v : Nat) (hv : v < 2 ^ 20 ∨ v < 2 ^ s.cfg.waitw) (hi : Instr.isWait i = true)
      (haux : (encodeFields i).aux ≠ 13) : ControlOutcome s i (s.pause v)

theorem ControlOutcome.checkSystem {s : State} {i : Instr} {body : State}
    (h : s.systemMode = true → ControlOutcome s i body) : ControlOutcome s i (s.checkSystem body) := by
  rcases s.checkSystem_cases body with ⟨hs, he⟩ | ⟨-, he⟩
  · rw [he]
    exact h hs
  · rw [he]
    exact .refused 3 (by decide)

theorem ControlOutcome.checkBank {s : State} {i : Instr} {scr : Word} {body : State}
    (h : s.badBank scr = false → ControlOutcome s i body) : ControlOutcome s i (s.checkBank scr body) := by
  rcases s.checkBank_cases scr body with ⟨hb, he⟩ | ⟨-, he⟩
  · rw [he]
    exact h hb
  · rw [he]
    exact .refused 4 (by decide)

theorem ControlOutcome.branchTo {s : State} {i : Instr} (haux : (encodeFields i).aux ≠ 13) (c : Cond) (m : MMode)
    (a p : Bool) (arg : RegNum) (value : BitVec 64) : ControlOutcome s i (s.branchTo c m a p arg value) := by
  unfold State.branchTo
  split
  · exact .transferred a p value haux
  · exact .notTaken haux

theorem Cond.code_ne_return (c : Cond) : Cond.code c ≠ 13 := by cases c <;> decide

/-- The mnemonics of the control instructions by AUXCODE, that of a return by its code (R155). -/
def controlMnemonic (ret : BitVec 3) (aux : BitVec 4) : Mnemonic :=
  [.jmp, .bz, .bnz, .bm, .bmz, .bnm, .bnmo, .bl, .blz, .bnl, .bnlo, .bo, .bno,
    [.ret, .reti, .rete, .retn].getD ret.toNat .mov, .wait].getD aux.toNat .mov

theorem mnemonic_control {i : Instr} (hg : (encodeFields i).group = 1) :
    Instr.mnemonic i = controlMnemonic (encodeFields i).mmode (encodeFields i).aux := by
  simp [Instr.mnemonic, hg]
  rfl

theorem controlMnemonic_branch (ret : BitVec 3) (c : Cond) : controlMnemonic ret (Cond.code c) = Cond.mnemonic c := by
  cases c <;> rfl

/-- `i` is a control instruction with the mnemonic and the register fields given (R153 to R155, R158). -/
structure Instr.IsControlWith (i : Instr) (mn : Mnemonic) (rs : List RegNum) : Prop where
  group : (encodeFields i).group = 1
  mnemonic : controlMnemonic (encodeFields i).mmode (encodeFields i).aux = mn
  registers : cond (decide ((encodeFields i).aux.toNat = 0 ∨ 13 ≤ (encodeFields i).aux.toNat)) [] [(encodeFields i).dest] ++
    cond ((encodeFields i).b26 || (decide ((encodeFields i).aux.toNat = 13) && !(encodeFields i).b25)) []
      [(encodeFields i).mid] = rs

theorem Instr.IsControlWith.registersExist_eq {i : Instr} {mn : Mnemonic} {rs : List RegNum}
    (h : Instr.IsControlWith i mn rs) (s : State) : Instr.registersExist s.cfg i = s.gprsExist rs := by
  obtain ⟨hg, -, rfl⟩ := h
  simp only [Instr.registersExist, hg, State.gprsExist, List.all_append]
  cases decide ((encodeFields i).aux.toNat = 0 ∨ 13 ≤ (encodeFields i).aux.toNat) <;>
    cases (encodeFields i).b26 || (decide ((encodeFields i).aux.toNat = 13) && !(encodeFields i).b25) <;> simp

/-- A control instruction other than a branch is provided where the implementation has it (R159). -/
theorem Instr.IsControlWith.provided_eq {i : Instr} {mn : Mnemonic} {rs : List RegNum} (h : Instr.IsControlWith i mn rs)
    (haux : decide (1 ≤ (encodeFields i).aux.toNat ∧ (encodeFields i).aux.toNat ≤ 12) = false) (c : Config) :
    Instr.provided c i = c.has mn := by
  simp only [Instr.provided, mnemonic_control h.group, h.mnemonic, if_neg (of_decide_eq_false haux)]
  simp [h.group]

/-- A branch is provided in the modes the implementation has it in (R159). -/
theorem provided_branch {i : Instr} {m : MMode} (hg : (encodeFields i).group = 1)
    (haux : decide (1 ≤ (encodeFields i).aux.toNat ∧ (encodeFields i).aux.toNat ≤ 12) = true)
    (hm : (encodeFields i).mmode = m.code) (c : Config) :
    Instr.provided c i = c.implements (Instr.mnemonic i) m := by
  simp [Instr.provided, hg, of_decide_eq_true haux, hm, MMode.ofCode_code]

theorem provided_branchR (c : Config) (cond : Cond) (m : MMode) (a p : Bool) (arg loc : RegNum) :
    Instr.provided c (.branchR cond m a p arg loc) = c.implements (Cond.mnemonic cond) m := by
  have hg : (encodeFields (.branchR cond m a p arg loc)).group = 1 := by cases cond <;> rfl
  rw [provided_branch hg (by cases cond <;> rfl) (m := m) (by cases cond <;> rfl), mnemonic_control hg,
    aux_encodeFields_branchR, controlMnemonic_branch]

theorem provided_branchO (c : Config) (cond : Cond) (m : MMode) (a p : Bool) (arg : RegNum) (off : BitVec 14) :
    Instr.provided c (.branchO cond m a p arg off) = c.implements (Cond.mnemonic cond) m := by
  have hg : (encodeFields (.branchO cond m a p arg off)).group = 1 := by cases cond <;> rfl
  rw [provided_branch hg (by cases cond <;> rfl) (m := m) (by cases cond <;> rfl), mnemonic_control hg,
    aux_encodeFields_branchO, controlMnemonic_branch]

/-- A control instruction other than a branch that runs its checks. -/
theorem State.Runs.of_has {s body : State} {i : Instr} {mn : Mnemonic} {rs : List RegNum}
    (h : Instr.IsControlWith i mn rs)
    (haux : decide (1 ≤ (encodeFields i).aux.toNat ∧ (encodeFields i).aux.toNat ≤ 12) = false)
    (hexec : exec i s = .next (s.checkOther (s.cfg.has mn) (s.gprsExist rs) body)) (hbody : ControlOutcome s i body) :
    s.Runs i (ControlOutcome s i) :=
  ⟨body, by rw [h.provided_eq haux, h.registersExist_eq]; exact hexec, fun _ => hbody⟩

/-- A branch runs its checks and is taken or not. -/
theorem State.Runs.of_branch {s : State} {i : Instr} {c : Cond} {m : MMode} {a p : Bool} {arg : RegNum}
    {value : BitVec 64} {rs : List RegNum} (haux : (encodeFields i).aux = Cond.code c)
    (hp : Instr.provided s.cfg i = s.cfg.implements (Cond.mnemonic c) m)
    (hr : Instr.registersExist s.cfg i = s.gprsExist rs)
    (hexec : exec i s = .next (s.checkOther (s.cfg.implements (Cond.mnemonic c) m) (s.gprsExist rs)
      (s.branchTo c m a p arg value))) : s.Runs i (ControlOutcome s i) :=
  ⟨_, by rw [hp, hr]; exact hexec, fun _ => .branchTo (haux.trans_ne (Cond.code_ne_return c)) c m a p arg value⟩

theorem isControlWith_branchR (c : Cond) (m : MMode) (a p : Bool) (arg loc : RegNum) :
    Instr.IsControlWith (.branchR c m a p arg loc) (Cond.mnemonic c) [arg, loc] := by
  refine ⟨by cases c <;> rfl, ?_, by cases c <;> rfl⟩
  rw [aux_encodeFields_branchR, controlMnemonic_branch]

theorem isControlWith_branchO (c : Cond) (m : MMode) (a p : Bool) (arg : RegNum) (off : BitVec 14) :
    Instr.IsControlWith (.branchO c m a p arg off) (Cond.mnemonic c) [arg] := by
  refine ⟨by cases c <;> rfl, ?_, by cases c <;> rfl⟩
  rw [aux_encodeFields_branchO, controlMnemonic_branch]

/-- Every control instruction runs the checks of R160 and has one of its outcomes where it passes them. -/
theorem runs_of_controlForm {i : Instr} (hi : i.ControlForm) (s : State) : s.Runs i (ControlOutcome s i) := by
  cases hi with
  | jmpR a p loc =>
    exact .of_has ⟨rfl, rfl, rfl⟩ rfl rfl (.transferred a p (s.locationValue loc) (show (0#4) ≠ 13 by decide))
  | jmpO a p off =>
    exact .of_has ⟨rfl, rfl, rfl⟩ rfl rfl (.transferred a p (off.signExtend 64) (show (0#4) ≠ 13 by decide))
  | branchR c m a p arg loc =>
    exact .of_branch (aux_encodeFields_branchR c m a p arg loc) (provided_branchR ..)
      ((isControlWith_branchR c m a p arg loc).registersExist_eq s) (exec_branchR s c m a p arg loc)
  | branchO c m a p arg off =>
    exact .of_branch (aux_encodeFields_branchO c m a p arg off) (provided_branchO ..)
      ((isControlWith_branchO c m a p arg off).registersExist_eq s) (exec_branchO s c m a p arg off)
  | ret p => exact .of_has ⟨rfl, rfl, rfl⟩ rfl rfl (.returned p)
  | reti p => exact .of_has ⟨rfl, rfl, rfl⟩ rfl rfl (.left .interrupt p (.inl rfl) rfl)
  | rete p => exact .of_has ⟨rfl, rfl, rfl⟩ rfl rfl (.checkSystem fun hs => .left .exception p (.inr hs) rfl)
  | reteR p loc =>
    exact .of_has ⟨rfl, rfl, rfl⟩ rfl rfl (.checkSystem fun hs => .checkBank fun hb => .leftExceptionWith p _ hs hb rfl)
  | reteO p off =>
    exact .of_has ⟨rfl, rfl, rfl⟩ rfl rfl (.checkSystem fun hs => .checkBank fun hb => .leftExceptionWith p _ hs hb rfl)
  | retn p => exact .of_has ⟨rfl, rfl, rfl⟩ rfl rfl (.checkSystem fun hs => .left .nmi p (.inr hs) rfl)
  | retnR p loc =>
    exact .of_has ⟨rfl, rfl, rfl⟩ rfl rfl (.checkSystem fun hs => .checkBank fun hb => .leftNmiWith p _ hs hb rfl)
  | retnO p off =>
    exact .of_has ⟨rfl, rfl, rfl⟩ rfl rfl (.checkSystem fun hs => .checkBank fun hb => .leftNmiWith p _ hs hb rfl)
  | waitR loc =>
    exact .of_has ⟨rfl, rfl, rfl⟩ rfl rfl (.paused _ (.inr (Nat.mod_lt _ (Nat.two_pow_pos _))) rfl
      (show (14#4) ≠ 13 by decide))
  | waitO off =>
    exact .of_has ⟨rfl, rfl, rfl⟩ rfl rfl (.paused _ (.inl off.isLt) rfl (show (14#4) ≠ 13 by decide))

end Sys2Proof.Machine

/-! PROOFS of the traps of the decode-time checks and of the frames: what an arithmetic/logic, a control and a transfer
instruction can change. -/
namespace Sys2Proof.Machine

/-! ## The groups of instructions (R140) -/

theorem group_eq_one_of_control {i : Instr} (h : i.ControlForm) : (encodeFields i).group = 1 := by
  cases h
  case branchR c m a p arg loc => cases c <;> rfl
  case branchO c m a p arg off => cases c <;> rfl
  all_goals rfl

/-- An instruction that is no arithmetic/logic one is a transfer or a control instruction. -/
theorem form_of_isAlu_eq_false {i : Instr} (h : Instr.isAlu i = false) : i.TransferForm ∨ i.ControlForm :=
  i.form_cases.resolve_left (by simp [h])

theorem isTransfer_eq_false_of_alu {i : Instr} (h : Instr.isAlu i = true) : Instr.isTransfer i = false := by
  have hg : (encodeFields i).group = 0 := by simpa [Instr.isAlu] using h
  simp [Instr.isTransfer, hg]

theorem isTransfer_eq_false_of_control {i : Instr} (h : i.ControlForm) : Instr.isTransfer i = false := by
  simp [Instr.isTransfer, group_eq_one_of_control h]

theorem isControl_eq_false_of_alu {i : Instr} (h : Instr.isAlu i = true) : Instr.isControl i = false := by
  have hg : (encodeFields i).group = 0 := by simpa [Instr.isAlu] using h
  simp [Instr.isControl, hg]

theorem isControl_eq_false_of_transfer {i : Instr} (h : i.TransferForm) : Instr.isControl i = false := by
  cases h with
  | load atomic m d x =>
    rw [Instr.isControl, encodeFields_load]
    rcases x with _ | _ | _ <;> rfl
  | store atomic m d x =>
    rw [Instr.isControl, encodeFields_store]
    rcases x with _ | _ | _ <;> rfl
  | _ => rfl

theorem form_of_isTransfer {i : Instr} (h : Instr.isTransfer i = true) : i.TransferForm := by
  rcases i.form_cases with hi | hi | hi
  · simp [isTransfer_eq_false_of_alu hi] at h
  · exact hi
  · simp [isTransfer_eq_false_of_control hi] at h

theorem form_of_isControl {i : Instr} (h : Instr.isControl i = true) : i.ControlForm := by
  rcases i.form_cases with hi | hi | hi
  · simp [isControl_eq_false_of_alu hi] at h
  · simp [isControl_eq_false_of_transfer hi] at h
  · exact hi

/-! ## The checks, for every instruction -/

/-- What an instruction that is no arithmetic/logic one can do: the exceptions of the checks, or its own outcome. -/
theorem exec_other {i : Instr} (h : Instr.isAlu i = false) (s : State) :
    ∃ body, exec i s = .next (s.checkOther (Instr.provided s.cfg i) (Instr.registersExist s.cfg i) body) := by
  rcases form_of_isAlu_eq_false h with hi | hi
  · obtain ⟨body, he, -⟩ := runs_of_transferForm hi s
    exact ⟨body, he⟩
  · obtain ⟨body, he, -⟩ := runs_of_controlForm hi s
    exact ⟨body, he⟩

/-- Settles O56: the first of the checks, R160, by the two kinds of checks. -/
theorem unimplementedInstructionTraps : Obligations.UnimplementedInstructionTraps := by
  intro s i hp
  refine ⟨fun hi => ?other, fun hi hpot => ?potent, fun hi himp => ?impotent⟩
  case other =>
    obtain ⟨body, he⟩ := exec_other hi s
    rw [he, hp]
    exact congrArg _ (s.raiseSkip_eq_skipped .unimplementedInstruction)
  case potent =>
    rw [show (0x20 : BitVec 64) = excBit 5 by decide] at hpot
    obtain ⟨body, he, -⟩ := aluForm_of_isAlu hi s
    rw [he, hp]
    exact congrArg _ ((State.raise_potent (fun t => t.setFlags unimplementedFlags) hpot).trans
      (State.abandoned_eq_skipped hpot))
  case impotent =>
    rw [show (0x20 : BitVec 64) = excBit 5 by decide] at himp
    obtain ⟨body, he, -⟩ := aluForm_of_isAlu hi s
    rw [he, hp]
    exact congrArg _ (State.raise_impotent (fun t => t.setFlags unimplementedFlags) himp)

/-- Settles O57: the second of the checks, R160. -/
theorem unimplementedRegisterTraps : Obligations.UnimplementedRegisterTraps := by
  intro s i hp hr
  cases hi : Instr.isAlu i with
  | true =>
    obtain ⟨body, he, -⟩ := aluForm_of_isAlu hi s
    rw [he, hp, hr]
    exact congrArg _ (s.raiseSkip_eq_skipped .unimplementedRegister)
  | false =>
    obtain ⟨body, he⟩ := exec_other hi s
    rw [he, hp, hr]
    exact congrArg _ (s.raiseSkip_eq_skipped .unimplementedRegister)

/-! ## The frame of an arithmetic/logic instruction -/

/-- `v` is `u` but for the GPR and FP files and EST[15:0]; of the GPR file an integer instruction changed only the
registers of its result (R230, R311, R43). -/
structure ResultFrame (c : Config) (i : Instr) (u v : State) : Prop where
  eq : v = { u with gpr := v.gpr, fpr := v.fpr, est := u.est.extractLsb' 16 16 ++ v.est.extractLsb' 0 16 }
  length : v.gpr.length = u.gpr.length
  fpr : (encodeFields i).b24 = false → v.fpr = u.fpr
  gpr : (encodeFields i).b24 = false → ∀ k, (∀ j, j < Instr.resultRegisters c i →
    k ≠ u.bankBase + ((encodeFields i).dest.toNat + j) % c.ngpr) → v.gpr.getD k 0 = u.gpr.getD k 0

/-- The low half of an updated EST is the flags. -/
theorem extractLsb'_setFlags (x : BitVec 16) (f : EstFlags) : (x ++ f.bits).extractLsb' 0 16 = f.bits :=
  BitVec.extractLsb'_append_eq_right

/-- An update of the flags after a write of the register files. -/
theorem ResultFrame.of_setFlags {c : Config} {i : Instr} {u v : State} (f : EstFlags)
    (heq : v = { u with gpr := v.gpr, fpr := v.fpr }) (hlen : v.gpr.length = u.gpr.length)
    (hfpr : (encodeFields i).b24 = false → v.fpr = u.fpr)
    (hgpr : (encodeFields i).b24 = false → ∀ k, (∀ j, j < Instr.resultRegisters c i →
      k ≠ u.bankBase + ((encodeFields i).dest.toNat + j) % c.ngpr) → v.gpr.getD k 0 = u.gpr.getD k 0) :
    ResultFrame c i u (v.setFlags f) where
  eq := by
    have hest : (v.setFlags f).est.extractLsb' 0 16 = f.bits := extractLsb'_setFlags _ f
    rw [hest, heq]
    rfl
  length := hlen
  fpr := hfpr
  gpr := hgpr

theorem State.writeFp_eq {w : Nat} (s : State) (d : RegNum) (v : BitVec w) :
    s.writeFp d v = { s with gpr := (s.writeFp d v).gpr, fpr := (s.writeFp d v).fpr } ∧
      (s.writeFp d v).gpr.length = s.gpr.length := by
  unfold State.writeFp
  split
  · exact ⟨rfl, rfl⟩
  · exact ⟨rfl, writeFile_length ..⟩

theorem State.writeFpPart_eq {w : Nat} (s : State) (d : RegNum) (v : BitVec w) :
    s.writeFpPart d v = { s with gpr := (s.writeFpPart d v).gpr, fpr := (s.writeFpPart d v).fpr } ∧
      (s.writeFpPart d v).gpr.length = s.gpr.length := by
  unfold State.writeFpPart
  split
  · exact ⟨rfl, rfl⟩
  · exact ⟨rfl, writeFile_length ..⟩

/-- What a write-back can change. -/
theorem WriteBack.frame {c : Config} {i : Instr} {f : State → State} (h : WriteBack c i f) {u : State} (hc : u.cfg = c) :
    ResultFrame c i u (f u) := by
  subst hc
  cases h with
  | flags f => exact .of_setFlags f rfl rfl (fun _ => rfl) fun _ _ _ => rfl
  | gpr v f hw =>
    refine .of_setFlags f rfl (writeFile_length ..) (fun _ => rfl) fun _ k hk => ?_
    exact writeFile_other v fun j hj => hk j (hj.trans_le hw)
  | gprPair n q r f hj =>
    refine .of_setFlags f rfl ((writeFile_length ..).trans (writeFile_length ..)) (fun _ => rfl) fun _ k hk => ?_
    have hrest := writeFile_other (file := (u.writeGpr (encodeFields i).dest q).gpr) r fun j (hj' : j < pieces _ u.cfg.gprw.width) => by
      have := hk (n + j) (by omega)
      rwa [← Nat.add_assoc, ← Nat.mod_add_mod] at this
    exact hrest.trans (writeFile_other q fun j hj' => hk j (by omega))
  | fp v f hfp =>
    obtain ⟨heq, hlen⟩ := u.writeFp_eq (encodeFields i).dest v
    exact .of_setFlags f heq hlen (fun h => by simp [hfp] at h) fun h => by simp [hfp] at h
  | fpPart m v f hfp =>
    obtain ⟨heq, hlen⟩ := u.writeFpPart_eq (encodeFields i).dest v
    exact .of_setFlags f heq hlen (fun h => by simp [hfp] at h) fun h => by simp [hfp] at h

/-- What an arithmetic/logic instruction does, its checks included: it is skipped by UNIMPLEMENTED REGISTER, or it
completes. -/
theorem exec_alu {i : Instr} (hi : Instr.isAlu i = true) (s : State) :
    exec i s = .next (s.skipped 6) ∨ ∃ mask f, WriteBack s.cfg i f ∧ exec i s = .next (s.complete mask f) := by
  obtain ⟨body, he, mask, f, hf, rfl⟩ := aluForm_of_isAlu hi s
  rw [he]
  rcases s.checkAlu_cases (Instr.provided s.cfg i) (Instr.registersExist s.cfg i) (s.complete mask f) with
    ⟨-, -, h⟩ | ⟨-, -, h⟩ | ⟨-, h⟩
  · rw [h]
    exact .inr ⟨mask, f, hf, rfl⟩
  · rw [h]
    exact .inl rfl
  · rw [h]
    exact .inr ⟨_, _, .flags unimplementedFlags, congrArg _ (if_neg (excBit_ne_zero (by decide))).symm⟩

/-- What the end of an instruction can be: completed without exception, completed after impotent ones, abandoned. -/
theorem State.complete_outcomes (s : State) (mask : BitVec 64) (f : State → State) :
    s.complete mask f = (f s).advance ∨ (s.potent mask = false ∧ s.complete mask f = (f (s.note mask)).advance) ∨
    (s.potent mask = true ∧ s.complete mask f = { (s.note mask).advance with abandoned := true }) := by
  rcases s.complete_cases mask f with ⟨-, h⟩ | ⟨-, h⟩
  · exact .inl h
  · rw [h]
    rcases s.raise_cases mask f with hr | hr
    · exact .inr (.inr hr)
    · exact .inr (.inl hr)

theorem extractLsb'_halves (x : Word) : x.extractLsb' 16 16 ++ x.extractLsb' 0 16 = x := by
  apply BitVec.eq_of_getLsbD_eq
  intro b hb
  rw [BitVec.getLsbD_append, BitVec.getLsbD_extractLsb', BitVec.getLsbD_extractLsb']
  by_cases h : b < 16
  · simp [h]
  · have : b - 16 < 16 := by omega
    simp [h, this, show 16 + (b - 16) = b by omega, hb]

theorem and_or_self (x y : BitVec 64) : x &&& (x ||| y) = x := by
  apply BitVec.eq_of_getLsbD_eq
  intro b _
  simp +contextual

/-- The statement of AluFrame for a result written to a state in which exceptions may be noted. -/
theorem ResultFrame.aluFrame {s u v : State} {i : Instr} (h : ResultFrame s.cfg i u v) (exc : BitVec 64)
    (exi : Word) (hu : u = { s with exc := exc, exi := exi }) (hexc : s.exc &&& exc = s.exc)
    (hexi : exi = s.exi ∨ exi = s.ir) :
    let t := v.advance
    t = { s with gpr := t.gpr, fpr := t.fpr, est := s.est.extractLsb' 16 16 ++ t.est.extractLsb' 0 16, exc := t.exc,
                 exi := t.exi, ic := s.icWrap (s.ic + 1), abandoned := t.abandoned } ∧
    s.exc &&& t.exc = s.exc ∧ (t.exi = s.exi ∨ t.exi = s.ir) ∧ t.gpr.length = s.gpr.length ∧
    ((encodeFields i).b24 = false →
      t.fpr = s.fpr ∧
      ∀ k, (∀ j, j < Instr.resultRegisters s.cfg i →
          k ≠ s.bankBase + ((encodeFields i).dest.toNat + j) % s.cfg.ngpr) →
        t.gpr.getD k 0 = s.gpr.getD k 0) := by
  subst hu
  have hv_exc : v.exc = exc := by rw [h.eq]
  have hv_exi : v.exi = exi := by rw [h.eq]
  have hv_abandoned : v.abandoned = s.abandoned := by rw [h.eq]
  refine ⟨?_, by simpa [hv_exc] using hexc, by simpa [hv_exi] using hexi, h.length, fun hf => ⟨h.fpr hf, h.gpr hf⟩⟩
  refine (congrArg State.advance h.eq).trans ?_
  simp only [State.advance_exc, State.advance_exi, State.advance_abandoned, hv_exc, hv_exi, hv_abandoned]
  rfl

/-- Settles O58: an arithmetic/logic instruction is skipped, abandoned, or writes its result. -/
theorem aluFrame : Obligations.AluFrame := by
  intro i s t hi he
  have hskip : ∀ (exc : BitVec 64) (b : Bool), t = { s.advance with exc := s.exc ||| exc, exi := s.ir, abandoned := b } →
      t = { s with gpr := t.gpr, fpr := t.fpr, est := s.est.extractLsb' 16 16 ++ t.est.extractLsb' 0 16, exc := t.exc,
                   exi := t.exi, ic := s.icWrap (s.ic + 1), abandoned := t.abandoned } ∧
      s.exc &&& t.exc = s.exc ∧ (t.exi = s.exi ∨ t.exi = s.ir) ∧ t.gpr.length = s.gpr.length ∧
      ((encodeFields i).b24 = false → t.fpr = s.fpr ∧
        ∀ k, (∀ j, j < Instr.resultRegisters s.cfg i →
          k ≠ s.bankBase + ((encodeFields i).dest.toNat + j) % s.cfg.ngpr) → t.gpr.getD k 0 = s.gpr.getD k 0) := by
    rintro exc b rfl
    refine ⟨?_, and_or_self _ _, .inr rfl, rfl, fun _ => ⟨rfl, fun _ _ => rfl⟩⟩
    simp only [State.advance_est, extractLsb'_halves]
    rfl
  rcases exec_alu hi s with h | ⟨mask, f, hf, h⟩
  · rw [h, Host.Outcome.next.injEq] at he
    exact hskip (excBit 6) _ he.symm
  · rw [h, Host.Outcome.next.injEq] at he
    subst he
    rcases s.complete_outcomes mask f with h | ⟨-, h⟩ | ⟨-, h⟩
    · rw [h]
      exact (hf.frame rfl).aluFrame s.exc s.exi rfl (BitVec.and_self) (.inl rfl)
    · rw [h]
      exact (hf.frame (u := s.note mask) rfl).aluFrame (s.exc ||| mask) s.ir rfl (and_or_self _ _) (.inr rfl)
    · exact hskip mask true h

/-! ## The frame of a control instruction -/

/-- Settles O59: by the outcomes of the control instructions. -/
theorem controlFrame : Obligations.ControlFrame := by
  intro i s t hi he
  have hskip : ∀ n, t = s.skipped n →
      t = { s with ic := t.ic, crp := t.crp, scr := t.scr, exc := t.exc, exi := t.exi, run := t.run,
                   waitTimer := t.waitTimer, resv := t.resv, savExc := t.savExc, savNmi := t.savNmi, savIrq := t.savIrq,
                   abandoned := t.abandoned } ∧
      ((encodeFields i).aux ≠ 13 → t.scr = s.scr ∧ t.resv = s.resv ∧ t.savExc = s.savExc ∧ t.savNmi = s.savNmi ∧
        t.savIrq = s.savIrq) ∧
      (Instr.isWait i = false → t.run = s.run ∧ t.waitTimer = s.waitTimer) := by
    rintro n rfl
    exact ⟨rfl, fun _ => ⟨rfl, rfl, rfl, rfl, rfl⟩, fun _ => ⟨rfl, rfl⟩⟩
  rcases (runs_of_controlForm (form_of_isControl hi) s).exec_cases he with ⟨n, -, h⟩ | hbody
  · exact hskip n h
  · cases hbody with
    | transferred a p value haux => exact ⟨rfl, fun _ => ⟨rfl, rfl, rfl, rfl, rfl⟩, fun _ => ⟨rfl, rfl⟩⟩
    | notTaken haux => exact ⟨rfl, fun _ => ⟨rfl, rfl, rfl, rfl, rfl⟩, fun _ => ⟨rfl, rfl⟩⟩
    | returned p => exact ⟨rfl, fun _ => ⟨rfl, rfl, rfl, rfl, rfl⟩, fun _ => ⟨rfl, rfl⟩⟩
    | left handler p hs haux => cases handler <;> exact ⟨rfl, fun hne => absurd haux hne, fun _ => ⟨rfl, rfl⟩⟩
    | leftExceptionWith p scr hs hb haux => exact ⟨rfl, fun hne => absurd haux hne, fun _ => ⟨rfl, rfl⟩⟩
    | leftNmiWith p scr hs hb haux => exact ⟨rfl, fun hne => absurd haux hne, fun _ => ⟨rfl, rfl⟩⟩
    | refused n hn => exact hskip n rfl
    | paused v hv hw haux =>
      unfold State.pause
      split <;> exact ⟨rfl, fun _ => ⟨rfl, rfl, rfl, rfl, rfl⟩, fun h => by simp [hw] at h⟩

end Sys2Proof.Machine

/-! PROOFS of the frame of a data transfer (40_data_transfer.md R218). -/
namespace Sys2Proof.Machine

/-! ## What the writes of a transfer leave -/

theorem State.writeGpr_other {w : Nat} (s : State) (d : RegNum) (v : BitVec w) {k : Nat}
    (h : ∀ j < pieces w s.cfg.gprw.width, k ≠ s.bankBase + (d.toNat + j) % s.cfg.ngpr) :
    (s.writeGpr d v).gpr.getD k 0 = s.gpr.getD k 0 := writeFile_other v h

theorem State.applyIndex_other {w : Nat} (s : State) (x : Option (RegNum × BitVec w)) {k : Nat}
    (h : ∀ r v, x = some (r, v) → ∀ j < pieces w s.cfg.gprw.width, k ≠ s.bankBase + (r.toNat + j) % s.cfg.ngpr) :
    (s.applyIndex x).gpr.getD k 0 = s.gpr.getD k 0 := by
  rcases x with _ | ⟨r, v⟩
  · rfl
  · exact s.writeGpr_other r v (h r v rfl)

@[simp] theorem State.applyIndex_bankBase {w : Nat} (s : State) (x : Option (RegNum × BitVec w)) :
    (s.applyIndex x).bankBase = s.bankBase := by cases x <;> rfl

theorem State.applyIndex_eq {w : Nat} (s : State) (x : Option (RegNum × BitVec w)) :
    s.applyIndex x = { s with gpr := (s.applyIndex x).gpr } ∧ (s.applyIndex x).gpr.length = s.gpr.length := by
  cases x with
  | none => exact ⟨rfl, rfl⟩
  | some p => exact ⟨rfl, writeFile_length ..⟩

/-- The index register of the form is not among the cells of `k`. -/
def State.NotIndex (s : State) (m : MMode) (x : Addr) (k : Nat) : Prop :=
  ∀ r v, s.indexWrite m x = some (r, v) →
    ∀ j < pieces s.cfg.pawm.width s.cfg.gprw.width, k ≠ s.bankBase + (r.toNat + j) % s.cfg.ngpr

/-- `k` is no cell of an `m`-wide datum in DESTINATION. -/
def State.NotData (s : State) (m : MMode) (d : RegNum) (k : Nat) : Prop :=
  ∀ j < pieces m.width s.cfg.gprw.width, k ≠ s.bankBase + (d.toNat + j) % s.cfg.ngpr

/-- The index and the data of a transfer leave every other cell. -/
theorem State.indexed_data_other {s u : State} {m : MMode} {d : RegNum} {x : Addr} {k : Nat} (v : BitVec m.width)
    (hcfg : u.cfg = s.cfg) (hscr : u.scr = s.scr) (hgpr : u.gpr = s.gpr) (hd : s.NotData m d k)
    (hi : s.NotIndex m x k) :
    ((u.applyIndex (s.indexWrite m x)).writeGpr d v).gpr.getD k 0 = s.gpr.getD k 0 := by
  have hbase : u.bankBase = s.bankBase := by rw [State.bankBase, hcfg, hscr]; rfl
  rw [State.writeGpr_other, State.applyIndex_other, hgpr]
  · rwa [hcfg, hbase]
  · rwa [State.applyIndex_cfg, State.applyIndex_bankBase, hcfg, hbase]

/-! ## The frame -/

/-- What a transfer other than one to the special registers can change. -/
structure MoveFrame (s t : State) : Prop where
  eq : t = { s with gpr := t.gpr, dsp := t.dsp, fpr := t.fpr, mem := t.mem, exc := t.exc, exi := t.exi, ic := t.ic,
                    error := t.error, resv := t.resv, abandoned := t.abandoned }
  length : t.gpr.length = s.gpr.length

theorem MoveFrame.skipped (s : State) (n : Nat) : MoveFrame s (s.skipped n) := ⟨rfl, rfl⟩

theorem MoveFrame.dBusError (s : State) : MoveFrame s s.dBusError := by
  unfold State.dBusError
  dsimp only
  split <;> exact ⟨rfl, rfl⟩

theorem State.dBusError_files (s : State) :
    s.dBusError.gpr = s.gpr ∧ s.dBusError.dsp = s.dsp ∧ s.dBusError.fpr = s.fpr ∧ s.dBusError.mem = s.mem := by
  unfold State.dBusError
  dsimp only
  split <;> exact ⟨rfl, rfl, rfl, rfl⟩

/-- The write of the index in a state that differs in memory and the reservation only. -/
theorem MoveFrame.indexed {w : Nat} {s u : State} (x : Option (RegNum × BitVec w))
    (hu : u = { s with mem := u.mem, resv := u.resv }) : MoveFrame s (u.applyIndex x) := by
  obtain ⟨heq, hlen⟩ := u.applyIndex_eq x
  refine ⟨?_, hlen.trans (by rw [hu])⟩
  rw [heq, hu]

theorem MoveFrame.writeGpr {w : Nat} {s u : State} (h : MoveFrame s u) (d : RegNum) (v : BitVec w) :
    MoveFrame s (u.writeGpr d v) := by
  exact ⟨congrArg (fun z : State => { z with gpr := (u.writeGpr d v).gpr }) h.eq, (writeFile_length ..).trans h.length⟩

theorem MoveFrame.advance {s u : State} (h : MoveFrame s u) : MoveFrame s u.advance := by
  exact ⟨congrArg (fun z : State => { z with ic := u.advance.ic }) h.eq, h.length⟩

theorem MoveFrame.withResv {s u : State} (h : MoveFrame s u) (r : Option Reservation) :
    MoveFrame s { u with resv := r } := by
  exact ⟨congrArg (fun z : State => { z with resv := r }) h.eq, h.length⟩

theorem LoadOutcome.frame {s t : State} {locked : Bool} {m : MMode} {d : RegNum} {x : Addr}
    (h : LoadOutcome s locked m d x t) : MoveFrame s t := by
  cases h with
  | failed => exact .dBusError s
  | loaded v ps hps => exact (((MoveFrame.indexed _ rfl).writeGpr d v).withResv _).advance

theorem StoreOutcome.frame {s t : State} {m : MMode} {x : Addr} (h : StoreOutcome s m x t) : MoveFrame s t := by
  cases h with
  | failed => exact .dBusError s
  | stored ps bs hps => exact (MoveFrame.indexed _ rfl).advance

theorem StoreCondOutcome.frame {s t : State} {m : MMode} {d : RegNum} {x : Addr} (h : StoreCondOutcome s m d x t) :
    MoveFrame s t := by
  cases h with
  | failed => exact .dBusError s
  | stored ps bs hps => exact ((MoveFrame.indexed _ rfl).writeGpr d _).advance
  | refused => exact ((MoveFrame.indexed _ rfl).writeGpr d _).advance

theorem GprOutcome.frame {s t : State} {m : MMode} {d : RegNum} (h : GprOutcome s m d t) : MoveFrame s t := by
  obtain ⟨v, rfl⟩ := h
  exact ⟨rfl, writeFile_length ..⟩

/-- What a transfer to the special registers can change. -/
structure SpcFrame (s t : State) : Prop where
  eq : t = { s with est := t.est, exi := t.exi, exc := t.exc, exm := t.exm, etb := t.etb, itb := t.itb, cid := t.cid,
                    pid := t.pid, scr := t.scr, nrp := t.nrp, erp := t.erp, ucr := t.ucr, crp := t.crp, irp := t.irp,
                    dcr := t.dcr, ic := t.ic, abandoned := t.abandoned }

theorem SpcOutcome.frame {s t : State} {m : MMode} {d r : RegNum} (h : SpcOutcome s m d r t) : SpcFrame s t := by
  cases h with
  | refused n hn => exact ⟨rfl⟩
  | written hd huser hbank =>
    unfold State.afterSpcWrite
    split <;> exact ⟨rfl⟩

/-- The frame of a transfer other than one to the special registers, with the files it leaves. -/
theorem TransferOutcome.moveFrame {s t : State} {i : Instr} (h : TransferOutcome s t i)
    (hspc : ∀ m d r, i ≠ .movSpcReg m d r) :
    MoveFrame s t ∧ ((∀ atomic m d x, i ≠ .store atomic m d x) → t.mem = s.mem) ∧
    ((∀ m d r, i ≠ .movDspReg m d r) → t.dsp = s.dsp) ∧ ((∀ m d r, i ≠ .movFprReg m d r) → t.fpr = s.fpr) := by
  cases h with
  | load h =>
    refine ⟨h.frame, ?_⟩
    cases h with
    | failed => exact ⟨fun _ => s.dBusError_files.2.2.2, fun _ => s.dBusError_files.2.1, fun _ => s.dBusError_files.2.2.1⟩
    | loaded v ps hps => simp
  | store h =>
    refine ⟨h.frame, fun hne => absurd rfl (hne false _ _ _), ?_⟩
    cases h with
    | failed => exact ⟨fun _ => s.dBusError_files.2.1, fun _ => s.dBusError_files.2.2.1⟩
    | stored ps bs hps => simp
  | storeCond h =>
    refine ⟨h.frame, fun hne => absurd rfl (hne true _ _ _), ?_⟩
    cases h with
    | failed => exact ⟨fun _ => s.dBusError_files.2.1, fun _ => s.dBusError_files.2.2.1⟩
    | stored ps bs hps => simp
    | refused => simp
  | gpr h =>
    refine ⟨h.frame, ?_⟩
    obtain ⟨v, rfl⟩ := h
    exact ⟨fun _ => rfl, fun _ => rfl, fun _ => rfl⟩
  | spc h => exact absurd rfl (hspc _ _ _)
  | dsp h =>
    obtain ⟨f, -, rfl⟩ := h
    exact ⟨⟨rfl, rfl⟩, fun _ => rfl, fun hne => absurd rfl (hne _ _ _), fun _ => rfl⟩
  | fpr h =>
    obtain ⟨f, -, rfl⟩ := h
    exact ⟨⟨rfl, rfl⟩, fun _ => rfl, fun _ => rfl, fun hne => absurd rfl (hne _ _ _)⟩

/-- What every data transfer leaves: the configuration, RUN, the pending events, the saved records, the size of the GPR
file and the implementation-specific files. -/
theorem MoveFrame.rest {s t : State} (h : MoveFrame s t) :
    t.cfg = s.cfg ∧ t.run = s.run ∧ t.waitTimer = s.waitTimer ∧ t.nmiPending = s.nmiPending ∧
    t.irqPending = s.irqPending ∧ t.savExc = s.savExc ∧ t.savNmi = s.savNmi ∧ t.savIrq = s.savIrq ∧
    t.gpr.length = s.gpr.length ∧ t.extra = s.extra := by
  refine ⟨?_, ?_, ?_, ?_, ?_, ?_, ?_, ?_, h.length, ?_⟩ <;> rw [h.eq]

theorem SpcFrame.rest {s t : State} (h : SpcFrame s t) :
    (t.cfg = s.cfg ∧ t.run = s.run ∧ t.waitTimer = s.waitTimer ∧ t.nmiPending = s.nmiPending ∧
    t.irqPending = s.irqPending ∧ t.savExc = s.savExc ∧ t.savNmi = s.savNmi ∧ t.savIrq = s.savIrq ∧
    t.gpr.length = s.gpr.length ∧ t.extra = s.extra) ∧ t.gpr = s.gpr ∧ t.mem = s.mem ∧ t.dsp = s.dsp ∧ t.fpr = s.fpr := by
  refine ⟨⟨?_, ?_, ?_, ?_, ?_, ?_, ?_, ?_, ?_, ?_⟩, ?_, ?_, ?_, ?_⟩ <;> rw [h.eq]

/-! ## The GPR file and memory, form by form -/

theorem exec_load_gpr {s t : State} {locked : Bool} {m : MMode} {d : RegNum} {x : Addr}
    (he : exec (.load locked m d x) s = .next t) {k : Nat} (hd : s.NotData m d k) (hi : s.NotIndex m x k) :
    t.gpr.getD k 0 = s.gpr.getD k 0 := by
  rcases (s.runs_load locked m d x).exec_cases he with ⟨n, -, rfl⟩ | h
  · rfl
  · cases h with
    | failed => rw [s.dBusError_files.1]
    | loaded v ps hps => exact State.indexed_data_other v rfl rfl rfl hd hi

theorem exec_store_gpr {s t : State} {m : MMode} {d : RegNum} {x : Addr}
    (he : exec (.store false m d x) s = .next t) {k : Nat} (hi : s.NotIndex m x k) :
    t.gpr.getD k 0 = s.gpr.getD k 0 := by
  rcases (s.runs_store m d x).exec_cases he with ⟨n, -, rfl⟩ | h
  · rfl
  · cases h with
    | failed => rw [s.dBusError_files.1]
    | stored ps bs hps => exact State.applyIndex_other _ _ hi

theorem exec_storeCond_gpr {s t : State} {m : MMode} {d : RegNum} {x : Addr}
    (he : exec (.store true m d x) s = .next t) {k : Nat} (hd : s.NotData m d k) (hi : s.NotIndex m x k) :
    t.gpr.getD k 0 = s.gpr.getD k 0 := by
  rcases (s.runs_storeCond m d x).exec_cases he with ⟨n, -, rfl⟩ | h
  · rfl
  · cases h with
    | failed => rw [s.dBusError_files.1]
    | stored ps bs hps => exact State.indexed_data_other 1 rfl rfl rfl hd hi
    | refused => exact State.indexed_data_other 0 rfl rfl rfl hd hi

/-- A store changes no byte outside its access. -/
theorem exec_store_mem {s t : State} {atomic : Bool} {m : MMode} {d : RegNum} {x : Addr}
    (he : exec (.store atomic m d x) s = .next t) {a : Nat}
    (ha : ∀ ps, s.physRange .write (s.effective m x) (m.width / 8) = some ps → a ∉ ps) :
    memByte t.mem a = memByte s.mem a := by
  cases atomic with
  | false =>
    rcases (s.runs_store m d x).exec_cases he with ⟨n, -, rfl⟩ | h
    · rfl
    · cases h with
      | failed => rw [s.dBusError_files.2.2.2]
      | stored ps bs hps => simpa using memByte_memSetAll_other _ (ha ps hps)
  | true =>
    rcases (s.runs_storeCond m d x).exec_cases he with ⟨n, -, rfl⟩ | h
    · rfl
    · cases h with
      | failed => rw [s.dBusError_files.2.2.2]
      | stored ps bs hps => simpa using memByte_memSetAll_other _ (ha ps hps)
      | refused => simp

theorem GprOutcome.exec_gpr {s t : State} {i : Instr} {m : MMode} {d : RegNum} (h : s.Runs i (GprOutcome s m d))
    (he : exec i s = .next t) {k : Nat} (hd : s.NotData m d k) : t.gpr.getD k 0 = s.gpr.getD k 0 := by
  rcases h.exec_cases he with ⟨n, -, rfl⟩ | ⟨v, rfl⟩
  · rfl
  · exact s.writeGpr_other d v hd

/-- Settles O60: by the outcomes of the data transfers. -/
theorem transferFrame : Obligations.TransferFrame := by
  intro i s t hi he
  have hruns := (runs_of_transferForm (form_of_isTransfer hi) s).exec_cases he
  have hmove : (∀ m d r, i ≠ .movSpcReg m d r) →
      MoveFrame s t ∧ ((∀ atomic m d x, i ≠ .store atomic m d x) → t.mem = s.mem) ∧
      ((∀ m d r, i ≠ .movDspReg m d r) → t.dsp = s.dsp) ∧ ((∀ m d r, i ≠ .movFprReg m d r) → t.fpr = s.fpr) := by
    intro hspc
    rcases hruns with ⟨n, -, rfl⟩ | h
    · exact ⟨.skipped s n, fun _ => rfl, fun _ => rfl, fun _ => rfl⟩
    · exact h.moveFrame hspc
  have hspc : ∀ m d r, i = .movSpcReg m d r → SpcFrame s t := by
    rintro m d r rfl
    rcases (runs_movSpcReg s m d r).exec_cases he with ⟨n, -, rfl⟩ | h
    exacts [⟨rfl⟩, h.frame]
  obtain ⟨⟨hcfg, hrun, htimer, hnmi, hirq, hsavExc, hsavNmi, hsavIrq, hlen, hextra⟩, hmem, hdsp, hfpr⟩ :
      (t.cfg = s.cfg ∧ t.run = s.run ∧ t.waitTimer = s.waitTimer ∧ t.nmiPending = s.nmiPending ∧
        t.irqPending = s.irqPending ∧ t.savExc = s.savExc ∧ t.savNmi = s.savNmi ∧ t.savIrq = s.savIrq ∧
        t.gpr.length = s.gpr.length ∧ t.extra = s.extra) ∧
      ((∀ atomic m d x, i ≠ .store atomic m d x) → t.mem = s.mem) ∧
      ((∀ m d r, i ≠ .movDspReg m d r) → t.dsp = s.dsp) ∧ ((∀ m d r, i ≠ .movFprReg m d r) → t.fpr = s.fpr) := by
    by_cases h : ∃ m d r, i = .movSpcReg m d r
    · obtain ⟨m, d, r, h⟩ := h
      obtain ⟨hrest, -, hmem, hdsp, hfpr⟩ := (hspc m d r h).rest
      exact ⟨hrest, fun _ => hmem, fun _ => hdsp, fun _ => hfpr⟩
    · obtain ⟨hf, hrest⟩ := hmove fun m d r hi => h ⟨m, d, r, hi⟩
      exact ⟨hf.rest, hrest⟩
  refine ⟨hcfg, hrun, htimer, hnmi, hirq, hsavExc, hsavNmi, hsavIrq, hlen, fun h => (hmove h).1.eq, hmem, hdsp, hfpr,
    hextra, ?memory, ⟨?load, ?store, ?storeCond, ?toGpr, ?imm, ?others⟩, fun m d r h => (hspc m d r h).eq⟩
  case memory =>
    rintro atomic m d x rfl a ha
    exact exec_store_mem he ha
  case load =>
    rintro locked m d x rfl k hd hx
    exact exec_load_gpr he (fun j hj hk => hd ⟨j, hj, hk⟩) fun r v hv j hj hk => hx ⟨r, v, hv, j, hj, hk⟩
  case store =>
    rintro m d x rfl k hx
    exact exec_store_gpr he fun r v hv j hj hk => hx ⟨r, v, hv, j, hj, hk⟩
  case storeCond =>
    rintro m d x rfl k hd hx
    exact exec_storeCond_gpr he (fun j hj hk => hd ⟨j, hj, hk⟩) fun r v hv j hj hk => hx ⟨r, v, hv, j, hj, hk⟩
  case toGpr =>
    intro m d r hi k hd
    have hr : s.Runs i (GprOutcome s m d) := by
      simp only [List.mem_cons, List.not_mem_nil, or_false] at hi
      rcases hi with rfl | rfl | rfl | rfl
      exacts [runs_movRegReg s m d r, runs_movRegSpc s m d r, runs_movRegDsp s m d r, runs_movRegFpr s m d r]
    exact GprOutcome.exec_gpr hr he fun j hj hk => hd ⟨j, hj, hk⟩
  case imm =>
    rintro m u d x rfl k hd
    exact GprOutcome.exec_gpr (runs_movImm s m u d x) he fun j hj hk => hd ⟨j, hj, hk⟩
  case others =>
    intro m d r hi
    simp only [List.mem_cons, List.not_mem_nil, or_false] at hi
    rcases hi with rfl | rfl | rfl
    · exact (hspc m d r rfl).rest.2.1
    · rcases (runs_movDspReg s m d r).exec_cases he with ⟨n, -, rfl⟩ | ⟨f, -, rfl⟩ <;> rfl
    · rcases (runs_movFprReg s m d r).exec_cases he with ⟨n, -, rfl⟩ | ⟨f, -, rfl⟩ <;> rfl

end Sys2Proof.Machine

/-! PROOFS about the step: its parts in order, the entry to a handler, the fetch that fails, the reset. -/
namespace Sys2Proof.Machine

/-! ## The parts of a step -/

/-- The state a step works on where the environment does nothing (log 7). -/
theorem State.sense_quiet (s : State) : (s.sense {}).latch {} = s.quiet := by
  simp only [State.latch, State.sense, List.foldl_nil, Bool.or_false]
  rfl

@[simp] theorem State.raiseEvents_nil (s : State) : s.raiseEvents [] = s := rfl

/-- The writes of other agents change memory and the reservation only. -/
theorem State.foldl_externalWrite_eq (s : State) (cs : List Host.Cell) :
    cs.foldl State.externalWrite s =
      { s with mem := (cs.foldl State.externalWrite s).mem, resv := (cs.foldl State.externalWrite s).resv } := by
  induction cs generalizing s with
  | nil => rfl
  | cons c cs ih => exact ih (s.externalWrite c)

theorem State.foldl_externalWrite_inputs (s : State) (cs : List Host.Cell) (rest : List Input) :
    cs.foldl State.externalWrite { s with inputs := rest } = { cs.foldl State.externalWrite s with inputs := rest } := by
  induction cs generalizing s with
  | nil => rfl
  | cons c cs ih => exact ih (s.externalWrite c)

/-- The state a running or waiting core works on in a step with the input `i`, before its hardware-raised exceptions. -/
theorem State.sense_latch (s : State) (i : Input) (rest : List Input) :
    (State.sense { s with inputs := rest } i).latch i = s.acted i rest := by
  have hnmi : (i.writes.foldl State.externalWrite s).nmiPending = s.nmiPending := by rw [s.foldl_externalWrite_eq]
  have hirq : (i.writes.foldl State.externalWrite s).irqPending = s.irqPending := by rw [s.foldl_externalWrite_eq]
  simp only [State.latch, State.sense, State.foldl_externalWrite_inputs, hnmi, hirq]
  rfl

theorem step_of_no_inputs {s : State} (hc : s.cfg.valid = true) (hi : s.inputs = []) (hr : s.run ≠ .stuck) :
    step s = s.cycle {} := by
  simp only [step, State.boundary, hc, hi, if_true, if_neg hr]

theorem step_of_input {s : State} {i : Input} {rest : List Input} (hc : s.cfg.valid = true) (hi : s.inputs = i :: rest) :
    step s = State.cycle { s with inputs := rest } i := by
  simp only [step, State.boundary, hc, hi, if_true]

@[simp] theorem State.sense_run (s : State) (i : Input) : (s.sense i).run = s.run := by
  change (i.writes.foldl State.externalWrite s).run = s.run
  rw [s.foldl_externalWrite_eq]

/-- A running core takes the events of the boundary or executes (R490). -/
theorem State.cycle_running {s : State} {i : Input} (hr : s.run = .running) (hreset : i.reset = false) :
    s.cycle i = (((s.sense i).latch i).raiseEvents i.raise).runCycle := by
  simp only [State.cycle, hreset, State.sense_run, hr, Bool.false_eq_true, if_false]

theorem step_running_quiet {s : State} (hc : s.cfg.valid = true) (hr : s.run = .running) (hi : s.inputs = []) :
    step s = s.quiet.runCycle := by
  rw [step_of_no_inputs hc hi (by simp [hr]), State.cycle_running hr rfl]
  exact congrArg State.runCycle s.sense_quiet

theorem step_running_input {s : State} {i : Input} {rest : List Input} (hc : s.cfg.valid = true)
    (hr : s.run = .running) (hi : s.inputs = i :: rest) (hreset : i.reset = false) :
    step s = ((s.acted i rest).notedBetween i.raise).runCycle := by
  rw [step_of_input hc hi, State.cycle_running (s := { s with inputs := rest }) hr hreset, State.sense_latch, State.raiseEvents_eq_notedBetween]

/-- An EXC bit is set and unmasked while exceptions are enabled (R451). -/
def State.Due (s : State) : Prop :=
  s.scr.getLsbD 2 = true ∧ ∃ n, n < 64 ∧ s.exc.getLsbD n = true ∧ s.exm.getLsbD n = false

theorem State.runCycle_nmi {s : State} (h : s.nmiPending = true) : s.runCycle = .next (s.enter .nmi) := by
  simp only [State.runCycle, h, if_true]

theorem State.runCycle_exception {s : State} (hn : s.nmiPending = false) (h : s.Due) :
    s.runCycle = .next (s.enter .exception) := by
  simp only [State.runCycle, hn, (s.potent_iff s.exc).2 h, if_true, Bool.false_eq_true, if_false]

theorem State.runCycle_interrupt {s : State} (hn : s.nmiPending = false) (he : s.potent s.exc = false)
    (h : (s.irqPending && s.irqEnabled) = true) : s.runCycle = .next (s.enter .interrupt) := by
  simp only [State.runCycle, hn, he, h, if_true, Bool.false_eq_true, if_false]

theorem State.runCycle_fetch {s : State} (hn : s.nmiPending = false) (he : s.potent s.exc = false)
    (h : (s.irqPending && s.irqEnabled) = false) :
    (s.fetch = none → s.runCycle = .next s.iBusError) ∧ ∀ w, s.fetch = some w → s.runCycle = s.execute w := by
  constructor
  · intro hf
    simp only [State.runCycle, hn, he, h, hf, Bool.false_eq_true, if_false]
  · intro w hf
    simp only [State.runCycle, hn, he, h, hf, Bool.false_eq_true, if_false]

/-- The step of a core that is ready to fetch. -/
theorem step_of_readyToFetch {s : State} (h : s.ReadyToFetch) :
    (s.quiet.fetch = none → step s = .next s.quiet.iBusError) ∧
    ∀ w, s.quiet.fetch = some w → step s = s.quiet.execute w := by
  obtain ⟨hc, hi, hr, hn, he, hirq⟩ := h
  rw [step_running_quiet hc hr hi]
  exact s.quiet.runCycle_fetch hn he hirq

/-- Settles O12: a core that is ready to fetch executes the decoded instruction. -/
theorem stepRunsDecodedInstruction : Obligations.StepRunsDecodedInstruction := by
  intro s w i h hw hd
  have hexec : s.quiet.execute w = match exec i (s.quiet.executing w) with
      | .next t' => .next (t'.debugAfter s.debugMode)
      | .fault r => .fault r
      | .refused r => .refused r := by
    simp only [State.execute, hd]
    rfl
  rw [(step_of_readyToFetch h).2 w hw, hexec]
  refine ⟨fun t ht => ?_, fun e he => by rw [he], fun e he => by rw [he]⟩
  rw [ht]
  simp [State.debugAfter, Exc.num, and_assoc]

/-- Settles O15: the order of the boundary, on the state the environment's action leaves. -/
theorem boundaryOrder : Obligations.BoundaryOrder := by
  intro s hc hr order
  have horder : ∀ t : State, step s = t.runCycle → order t := by
    intro t ht
    have hdue : t.potent t.exc = true ↔ t.Due := t.potent_iff t.exc
    have hirq : (t.irqPending && t.irqEnabled) = true ↔ t.irqPending = true ∧ t.scr.getLsbD 3 = true := Bool.and_eq_true_iff
    refine ⟨fun hn => ht.trans (t.runCycle_nmi hn), fun hn hd => ht.trans (t.runCycle_exception hn hd),
      fun hn hd hq => ht.trans (t.runCycle_interrupt hn (Bool.eq_false_iff.2 fun h => hd (hdue.1 h)) (hirq.2 hq)),
      fun hn hd hq => ?_⟩
    have hfetch := t.runCycle_fetch hn (Bool.eq_false_iff.2 fun h => hd (hdue.1 h))
      (Bool.eq_false_iff.2 fun h => hq (hirq.1 h))
    exact ⟨fun hf => ht.trans (hfetch.1 hf), fun w hf => ht.trans (hfetch.2 w hf)⟩
  refine ⟨fun hi => horder _ (step_running_quiet hc hr hi),
    fun i rest hi hreset => horder _ (step_running_input hc hr hi hreset), fun c hm a => ?_⟩
  split
  · next h =>
    subst h
    exact memByte_memSet_same hm _ _
  · next h => exact memByte_memSet_other _ _ h

/-! ## Handlers -/

theorem State.icWrap_eq_ofNat (s : State) (x : BitVec 64) : s.icWrap x = BitVec.ofNat 64 (x.toNat % 2 ^ s.cfg.icw) := by
  apply BitVec.eq_of_toNat_eq
  simp [State.icWrap]

/-- Settles O16: the entries bit by bit. -/
theorem handlerEntry : Obligations.HandlerEntry := by
  intro s
  refine ⟨⟨handlerScr s.scr, ?_, fun k hk => ?_⟩, ⟨handlerScr s.scr, ?_, fun k hk => ?_⟩,
    ⟨interruptScr s.scr, ?_, fun k hk => ?_⟩⟩
  · rw [← State.icWrap_eq_ofNat]
    rfl
  · simp only [handlerScr, getLsbD_setBit]
    split <;> split <;> simp_all
  · rw [← State.icWrap_eq_ofNat]
    rfl
  · simp only [handlerScr, getLsbD_setBit]
    split <;> split <;> simp_all
  · rw [← State.icWrap_eq_ofNat]
    rfl
  · simp only [interruptScr, getLsbD_setBit]
    split <;> split <;> simp_all

/-! ## Entering and leaving -/

/-- Bits 0, 2 and 3 come back from the saved record, whatever a handler's SCR has there. -/
theorem restoreScr_handlerScr (scr : Word) :
    restoreScr (handlerScr scr) ⟨scr.getLsbD 0, scr.getLsbD 2, scr.getLsbD 3⟩ = scr := by
  apply BitVec.eq_of_getLsbD_eq
  intro k hk
  simp only [restoreScr, handlerScr, getLsbD_setBit]
  split
  · simp_all
  · split
    · simp_all
    · split <;> simp_all

theorem State.enter_systemMode (s : State) (h : Handler) : (s.enter h).systemMode = true := by
  cases h <;> simp [State.systemMode, State.enter, handlerScr, interruptScr, getLsbD_setBit]

/-- Settles O17: what the entry saved is what the return restores. -/
theorem entryThenReturn : Obligations.EntryThenReturn := by
  intro s hic
  have hback : s.returnIc s.ic false = s.ic := State.icWrap_of_lt hic
  refine ⟨fun hrete => ?exception, fun hretn => ?nmi, fun hreti => ?interrupt⟩
  case exception =>
    have hexec : exec (.rete false) (s.enter .exception) = .next ((s.enter .exception).leave .exception false) :=
      congrArg _ ((State.checkOther_pass hrete rfl _).trans (if_pos (s.enter_systemMode .exception)))
    have hleave : (s.enter .exception).leave .exception false =
        { s.enter .exception with ic := s.ic, scr := s.scr, savExc := none } := by
      have hscr : ((s.enter .exception).leave .exception false).scr = s.scr := restoreScr_handlerScr s.scr
      have hic' : ((s.enter .exception).leave .exception false).ic = s.ic := hback
      rw [← hscr, ← hic']
      rfl
    refine ⟨_, hexec, ?_, ?_, ?_, hleave⟩ <;> rw [hleave]
  case nmi =>
    have hexec : exec (.retn false) (s.enter .nmi) = .next ((s.enter .nmi).leave .nmi false) :=
      congrArg _ ((State.checkOther_pass hretn rfl _).trans (if_pos (s.enter_systemMode .nmi)))
    have hleave : (s.enter .nmi).leave .nmi false = { s.enter .nmi with ic := s.ic, scr := s.scr, savNmi := none } := by
      have hscr : ((s.enter .nmi).leave .nmi false).scr = s.scr := restoreScr_handlerScr s.scr
      have hic' : ((s.enter .nmi).leave .nmi false).ic = s.ic := hback
      rw [← hscr, ← hic']
      rfl
    refine ⟨_, hexec, ?_, ?_, ?_, hleave⟩ <;> rw [hleave]
  case interrupt =>
    refine ⟨(s.enter .interrupt).leave .interrupt false, congrArg _ (State.checkOther_pass hreti rfl _), hback, rfl,
      fun k hk => ?_⟩
    change (restoreIrq (interruptScr s.scr) (s.scr.getLsbD 3)).getLsbD k = _
    simp only [restoreIrq, interruptScr, getLsbD_setBit]
    split
    · simp_all
    · simp [hk]

/-! ## A failing fetch and a stuck core -/

theorem State.iBusError_potent {s : State} (h : s.potent (excBit 20) = true) :
    s.iBusError = { s with exc := s.exc ||| excBit 20 } := if_pos h

/-- Settles O18: the fetch error of a core that is ready to fetch, and the cycle of a stuck core. -/
theorem fetchFailure : Obligations.FetchFailure := by
  intro s
  refine ⟨fun h hf => ⟨fun he hm => ?potent, fun him => ?impotent⟩, fun hc hr => ⟨fun hi => ?stays, fun i rest hi hreset => ?next⟩⟩
  case potent =>
    have hp : s.quiet.potent (excBit 20) = true :=
      (s.quiet.potent_excBit (by decide)).trans (by simpa [State.quiet] using ⟨he, hm⟩)
    rw [(step_of_readyToFetch h).1 hf, State.iBusError_potent hp]
    rfl
  case impotent =>
    have hp : s.quiet.potent (excBit 20) = false := by
      rw [State.potent_excBit _ (by decide)]
      change (s.scr.getLsbD 2 && !s.exm.getLsbD 20) = false
      rcases him with h | h <;> simp only [h, Bool.false_and, Bool.not_true, Bool.and_false]
    rcases s.quiet.iBusError_cases with ⟨h', -⟩ | ⟨-, he, hbit⟩
    · simp [hp] at h'
    · exact ⟨_, (step_of_readyToFetch h).1 hf, by rw [he], by rw [he], hbit⟩
  case stays => simp only [step, State.boundary, hc, hi, hr, if_true]
  case next =>
    have hcycle : step s = .next (State.sense { s with inputs := rest } i).undetermined := by
      rw [step_of_input hc hi]
      simp only [State.cycle, hreset, State.sense_run, hr, Bool.false_eq_true, if_false]
    refine ⟨_, hcycle, ?_, ?_, ?_⟩
    · exact (State.sense_run { s with inputs := rest } i).trans hr
    · change (i.writes.foldl State.externalWrite { s with inputs := rest }).error = s.error
      rw [State.foldl_externalWrite_eq]
    · change (i.writes.foldl State.externalWrite { s with inputs := rest }).inputs = rest
      rw [State.foldl_externalWrite_eq]

/-! ## The reset -/

theorem step_reset {s : State} {i : Input} {rest : List Input} (hc : s.cfg.valid = true) (hi : s.inputs = i :: rest)
    (hreset : i.reset = true) : step s = .next (State.sense { s with inputs := rest } i).systemReset := by
  rw [step_of_input hc hi]
  simp only [State.cycle, hreset, if_true]

theorem State.sense_cfg (s : State) (i : Input) : (s.sense i).cfg = s.cfg := by
  change (i.writes.foldl State.externalWrite s).cfg = s.cfg
  rw [State.foldl_externalWrite_eq]

/-- The special registers after a reset whose CORE ID is 0 (R66). -/
theorem State.systemReset_spcSlots {s : State} (h : s.cfg.cidReset = 0) : s.systemReset.spcSlots.drop 2 =
    [0, 0, 0, 0, 0, 0, 0, 0, 0, 0, 0, 0, 0, 1, 0, 0, 0, 0, 0, 0, 0, 0, 0, 0, 0] := by
  simp only [State.spcSlots, State.systemReset, State.resetWith, h]
  rfl

/-- Settles O20: a reset keeps the register files and memory and sets every register else. -/
theorem systemReset : Obligations.SystemReset := by
  refine ⟨fun s i rest hc hi hreset hw => ⟨_, step_reset hc hi hreset, ?_⟩, ⟨rfl, rfl⟩, rfl,
    fun s i rest hc hcid hi hreset => ⟨_, step_reset hc hi hreset, ⟨rfl, ?_⟩, ?_⟩⟩
  · have hsense : State.sense { s with inputs := rest } i =
        { s with inputs := rest, maySucceed := i.maySucceed, fetchFault := i.fetchFault, dataFault := i.dataFault,
                 freeCount := s.freeCount + 1 } := by
      simp only [State.sense, hw, List.foldl_nil]
    rw [hsense]
    exact ⟨rfl, rfl, rfl, rfl, rfl, rfl, rfl, rfl, rfl, rfl, rfl, rfl, rfl, rfl, rfl, rfl, rfl, rfl, rfl, rfl, rfl, rfl,
      rfl, rfl, rfl, rfl, rfl, rfl, rfl, rfl, rfl, rfl⟩
  · exact State.systemReset_spcSlots ((congrArg Config.cidReset (State.sense_cfg { s with inputs := rest } i)).trans hcid)
  · have hcfg : (State.sense { s with inputs := rest } i).systemReset.cfg = s.cfg :=
      State.sense_cfg { s with inputs := rest } i
    simp only [State.spcSlots, hcfg]
    rfl

end Sys2Proof.Machine

/-! PROOFS about abandoned instructions and about user mode. -/
namespace Sys2Proof.Machine

/-! ## Abandoned instructions -/

/-- `t` is `s` with the exceptions of the mask noted and its instruction abandoned, one of them being potent (R452). -/
def State.AbandonedBy (s t : State) (mask : BitVec 64) : Prop :=
  s.potent mask = true ∧ t = { (s.note mask).advance with abandoned := true }

/-- An instruction either leaves `abandoned` or is abandoned by a potent exception. -/
def State.AbandonsOnly (s t : State) : Prop := t.abandoned = s.abandoned ∨ ∃ mask, s.AbandonedBy t mask

theorem State.AbandonsOnly.skipped (s : State) (n : Nat) : s.AbandonsOnly (s.skipped n) := by
  cases h : s.potent (1#64 <<< n) with
  | false => exact .inl (by simp only [State.skipped, h, Bool.or_false])
  | true => exact .inr ⟨excBit n, h, (State.abandoned_eq_skipped h).symm⟩

theorem State.AbandonsOnly.dBusError (s : State) : s.AbandonsOnly s.dBusError := by
  unfold State.dBusError
  dsimp only
  split
  · next h => exact .inr ⟨_, h, rfl⟩
  · exact .inl rfl

theorem State.AbandonsOnly.complete {s : State} (mask : BitVec 64) {f : State → State}
    (hf : ∀ u, u.cfg = s.cfg → (f u).abandoned = u.abandoned) : s.AbandonsOnly (s.complete mask f) := by
  rcases s.complete_outcomes mask f with h | ⟨-, h⟩ | ⟨hp, h⟩
  · rw [h]
    exact .inl (hf s rfl)
  · rw [h]
    exact .inl (hf (s.note mask) rfl)
  · exact .inr ⟨mask, hp, h⟩

theorem TransferOutcome.abandonsOnly {s t : State} {i : Instr} (h : TransferOutcome s t i) : s.AbandonsOnly t := by
  cases h with
  | load h => cases h with
    | failed => exact .dBusError s
    | loaded v ps hps => exact .inl (by simp)
  | store h => cases h with
    | failed => exact .dBusError s
    | stored ps bs hps => exact .inl (by simp)
  | storeCond h => cases h with
    | failed => exact .dBusError s
    | stored ps bs hps => exact .inl (by simp)
    | refused => exact .inl (by simp)
  | gpr h => obtain ⟨v, rfl⟩ := h; exact .inl rfl
  | spc h => cases h with
    | refused n hn => exact .skipped s n
    | written hd huser hbank =>
      refine .inl ?_
      unfold State.afterSpcWrite
      split <;> rfl
  | dsp h => obtain ⟨f, -, rfl⟩ := h; exact .inl rfl
  | fpr h => obtain ⟨f, -, rfl⟩ := h; exact .inl rfl

theorem ControlOutcome.abandonsOnly {s t : State} {i : Instr} (h : ControlOutcome s i t) : s.AbandonsOnly t := by
  cases h with
  | left handler p hs haux => cases handler <;> exact .inl rfl
  | refused n hn => exact .skipped s n
  | paused v hv hi haux =>
    unfold State.pause
    split <;> exact .inl rfl
  | _ => exact .inl rfl

theorem exec_abandonsOnly {i : Instr} {s t : State} (he : exec i s = .next t) : s.AbandonsOnly t := by
  rcases i.form_cases with hi | hi | hi
  · rcases exec_alu hi s with h | ⟨mask, f, hf, h⟩ <;> rw [h, Host.Outcome.next.injEq] at he <;> subst he
    · exact .skipped s 6
    · exact .complete mask fun u hu => by rw [(hf.frame hu).eq]
  · rcases (runs_of_transferForm hi s).exec_cases he with ⟨n, -, rfl⟩ | h
    exacts [.skipped s n, h.abandonsOnly]
  · rcases (runs_of_controlForm hi s).exec_cases he with ⟨n, -, rfl⟩ | h
    exacts [.skipped s n, h.abandonsOnly]

/-- Settles O22: every instruction that leaves the field set is abandoned by a potent exception. -/
theorem potentExceptionAbandons : Obligations.PotentExceptionAbandons := by
  intro i s t hs he ht
  rcases exec_abandonsOnly he with h | ⟨mask, hp, rfl⟩
  · simp [ht, hs] at h
  · exact ⟨mask, rfl, (s.potent_iff mask).1 hp⟩

/-! ## SCR -/

/-- A write that does not touch slot 15 leaves SCR (R37). -/
theorem State.writeSpc_scr {w : Nat} (s : State) (d : RegNum) (v : BitVec w)
    (h : ∀ j < pieces w 32, 15 ≠ (d.toNat + j) % 27) : (s.writeSpc d v).scr = s.scr := by
  change ((writeFile s.spcFile 0 27 32 d.toNat v).getD 15 0).setWidth 32 = s.scr
  rw [writeFile_other v (by simpa using h)]
  exact setWidth_setWidth_word s.scr

theorem mem_spcTouched {d : RegNum} {m : MMode} {k : Nat} :
    k ∈ spcTouched d m.width ↔ ∃ j, j < pieces m.width 32 ∧ (d.toNat + j) % 27 = k := by
  have h : pieces m.width 32 = max 1 (m.width / 32) := pieces_width m .w
  simp [spcTouched, numSpc, h]

theorem State.writeSpc_scr_of_not_touched (s : State) (d : RegNum) {m : MMode} (v : BitVec m.width)
    (h : 15 ∉ spcTouched d m.width) : (s.writeSpc d v).scr = s.scr :=
  s.writeSpc_scr d v fun j hj he => h (mem_spcTouched.2 ⟨j, hj, he.symm⟩)

/-! ## User mode -/

theorem State.afterSpcWrite_scr (s : State) (slots : List Nat) : (s.afterSpcWrite slots).scr = s.scr := by
  unfold State.afterSpcWrite
  split <;> rfl

theorem TransferOutcome.scr_of_user {s t : State} {i : Instr} (h : TransferOutcome s t i) (hs : s.systemMode = false) :
    t.scr = s.scr := by
  cases h with
  | load h => rw [h.frame.eq]
  | store h => rw [h.frame.eq]
  | storeCond h => rw [h.frame.eq]
  | gpr h => rw [h.frame.eq]
  | spc h => cases h with
    | refused n hn => rfl
    | written hd huser hbank =>
      rw [State.afterSpcWrite_scr, State.writeSpc_scr_of_not_touched]
      intro h15
      exact absurd (huser hs 15 h15) (by decide)
  | dsp h => obtain ⟨f, -, rfl⟩ := h; rfl
  | fpr h => obtain ⟨f, -, rfl⟩ := h; rfl

theorem ControlOutcome.user {s t : State} {i : Instr} (h : ControlOutcome s i t) (hs : s.systemMode = false) :
    t.systemMode = false := by
  cases h with
  | left handler p hsys haux =>
    obtain rfl : handler = .interrupt := hsys.resolve_right (by simp [hs])
    simp only [State.leave, State.systemMode]
    cases s.savIrq with
    | none => exact hs
    | some b => exact (getLsbD_setBit s.scr 3 b 0).trans hs
  | leftExceptionWith p scr hsys hb haux => simp [hs] at hsys
  | leftNmiWith p scr hsys hb haux => simp [hs] at hsys
  | paused v hv hi haux =>
    unfold State.pause
    split <;> exact hs
  | _ => exact hs

/-- No instruction leaves user mode (R500). -/
theorem exec_user {i : Instr} {s t : State} (hs : s.systemMode = false) (he : exec i s = .next t) :
    t.systemMode = false := by
  rcases i.form_cases with hi | hi | hi
  · have h := (aluFrame i s t hi he).1
    rw [h]
    exact hs
  · rcases (runs_of_transferForm hi s).exec_cases he with ⟨n, -, rfl⟩ | h
    · exact hs
    · rw [State.systemMode, h.scr_of_user hs]
      exact hs
  · rcases (runs_of_controlForm hi s).exec_cases he with ⟨n, -, rfl⟩ | h
    · exact hs
    · exact h.user hs

@[simp] theorem State.debugAfter_scr (s : State) (dbg : Bool) : (s.debugAfter dbg).scr = s.scr := by
  unfold State.debugAfter
  split <;> rfl

/-- A transfer of an implementation-specific file leaves SCR. -/
theorem State.extraTransfer_scr {s t : State} {w : Word} (h : s.extraTransfer w = some t) : t.scr = s.scr := by
  rcases s.extraTransfer_cases w with h' | ⟨k, f, toGpr, -, h' | h' | ⟨-, h'⟩ | ⟨-, h'⟩⟩
  · simp [h'] at h
  all_goals
    rw [h', Option.some.injEq] at h
    subst h
    rfl

/-- What executing a word can be: an instruction, a transfer of a specific file, INVALID INSTRUCTION (R65, R459). -/
theorem State.execute_cases {s t : State} {w : Word} (h : s.execute w = .next t) :
    ∃ u, t = u.debugAfter s.debugMode ∧
      ((∃ i, decode w = .ok i ∧ exec i (s.executing w) = .next u) ∨
       ((∃ e, decode w = .error e) ∧
        ((s.executing w).extraTransfer w = some u ∨
         (s.executing w).extraTransfer w = none ∧ u = (s.executing w).skipped 2))) := by
  change (match decode w with
    | .error _ => .next ((((s.executing w).extraTransfer w).getD ((s.executing w).raiseSkip .invalidInstruction)).debugAfter
        s.debugMode)
    | .ok i => match exec i (s.executing w) with
      | .next t' => .next (t'.debugAfter s.debugMode)
      | .fault r => .fault r
      | .refused r => .refused r) = Host.Outcome.next t at h
  cases hd : decode w with
  | error e =>
    simp only [hd, Host.Outcome.next.injEq] at h
    refine ⟨_, h.symm, .inr ⟨⟨e, rfl⟩, ?_⟩⟩
    cases hx : (s.executing w).extraTransfer w with
    | none => exact .inr ⟨rfl, State.raiseSkip_eq_skipped _ _⟩
    | some u => exact .inl rfl
  | ok i =>
    simp only [hd] at h
    cases hx : exec i (s.executing w) with
    | next u =>
      rw [hx] at h
      exact ⟨u, (Host.Outcome.next.inj h).symm, .inl ⟨i, rfl, hx⟩⟩
    | fault r => simp [hx] at h
    | refused r => simp [hx] at h

theorem State.execute_user {s t : State} {w : Word} (hs : s.systemMode = false) (h : s.execute w = .next t) :
    t.systemMode = false := by
  obtain ⟨u, rfl, ⟨i, -, he⟩ | ⟨-, hx | ⟨-, rfl⟩⟩⟩ := State.execute_cases h
  · exact (congrArg (BitVec.getLsbD · 0) (u.debugAfter_scr s.debugMode)).trans (exec_user (s := s.executing w) hs he)
  · rw [State.systemMode, State.debugAfter_scr, State.extraTransfer_scr hx]
    exact hs
  · rw [State.systemMode, State.debugAfter_scr]
    exact hs

/-- What a cycle of a running core can be (R490). -/
theorem State.runCycle_cases {s t : State} (h : s.runCycle = .next t) :
    (s.nmiPending = true ∧ t = s.enter .nmi) ∨
    (s.nmiPending = false ∧ s.Due ∧ t = s.enter .exception) ∨
    (s.nmiPending = false ∧ s.irqPending = true ∧ s.irqEnabled = true ∧ t = s.enter .interrupt) ∨
    t = s.iBusError ∨ ∃ w, s.execute w = .next t := by
  cases hn : s.nmiPending with
  | true => exact .inl ⟨rfl, (Host.Outcome.next.inj (h.symm.trans (s.runCycle_nmi hn)))⟩
  | false =>
    refine .inr ?_
    cases he : s.potent s.exc with
    | true =>
      have hdue : s.Due := (s.potent_iff s.exc).1 he
      exact .inl ⟨rfl, hdue, Host.Outcome.next.inj (h.symm.trans (s.runCycle_exception hn hdue))⟩
    | false =>
      refine .inr ?_
      cases hq : s.irqPending && s.irqEnabled with
      | true =>
        obtain ⟨hp, hi⟩ := Bool.and_eq_true_iff.1 hq
        exact .inl ⟨rfl, hp, hi, Host.Outcome.next.inj (h.symm.trans (s.runCycle_interrupt hn he hq))⟩
      | false =>
        refine .inr ?_
        cases hf : s.fetch with
        | none => exact .inl (Host.Outcome.next.inj (h.symm.trans ((s.runCycle_fetch hn he hq).1 hf)))
        | some w => exact .inr ⟨w, ((s.runCycle_fetch hn he hq).2 w hf).symm.trans h⟩

/-- What a cycle of a waiting core can be (48_return_wait.md R406). -/
theorem State.waitCycle_cases (s : State) :
    (s.nmiPending = true ∧ s.waitCycle = (s.wake.enter .nmi).debugAfter s.debugMode) ∨
    (s.nmiPending = false ∧ s.irqPending = true ∧ s.irqEnabled = true ∧
      s.waitCycle = (s.wake.enter .interrupt).debugAfter s.debugMode) ∨
    (s.run = .waitingTimed ∧ s.waitTimer - 1 = 0 ∧ s.waitCycle = s.wake.debugAfter s.debugMode) ∨
    (s.run = .waitingTimed ∧ s.waitTimer - 1 ≠ 0 ∧ s.waitCycle = { s with waitTimer := s.waitTimer - 1 }) ∨
    (s.run ≠ .waitingTimed ∧ s.waitCycle = s) := by
  unfold State.waitCycle
  cases hn : s.nmiPending with
  | true => exact .inl ⟨rfl, rfl⟩
  | false =>
    simp only [Bool.false_eq_true, if_false]
    cases hq : s.irqPending && s.irqEnabled with
    | true =>
      obtain ⟨hp, hi⟩ := Bool.and_eq_true_iff.1 hq
      exact .inr (.inl ⟨trivial, hp, hi, rfl⟩)
    | false =>
      refine .inr (.inr ?_)
      by_cases hr : s.run = .waitingTimed
      · by_cases ht : s.waitTimer - 1 = 0
        · exact .inl ⟨hr, ht, by simp [hr, ht]⟩
        · exact .inr (.inl ⟨hr, ht, by simp [hr, ht]⟩)
      · exact .inr (.inr ⟨hr, by simp [hr]⟩)

/-- What a step under an input can be (R490). -/
theorem State.cycle_cases {s t : State} {i : Input} (h : s.cycle i = .next t) :
    (i.reset = true ∧ t = (s.sense i).systemReset) ∨
    (i.reset = false ∧ s.run = .stuck ∧ t = (s.sense i).undetermined) ∨
    (i.reset = false ∧ (s.run = .waitingTimed ∨ s.run = .waitingForever) ∧ t = ((s.sense i).latch i).waitCycle) ∨
    (i.reset = false ∧ s.run = .running ∧ (((s.sense i).latch i).raiseEvents i.raise).runCycle = .next t) := by
  cases hreset : i.reset with
  | true =>
    simp only [State.cycle, hreset, if_true, Host.Outcome.next.injEq] at h
    exact .inl ⟨rfl, h.symm⟩
  | false =>
    refine .inr ?_
    cases hr : s.run <;>
      simp only [State.cycle, hreset, State.sense_run, hr, Bool.false_eq_true, if_false, Host.Outcome.next.injEq] at h
    · exact .inr (.inr ⟨rfl, rfl, h⟩)
    · exact .inr (.inl ⟨rfl, .inl rfl, h.symm⟩)
    · exact .inr (.inl ⟨rfl, .inr rfl, h.symm⟩)
    · exact .inl ⟨rfl, rfl, h.symm⟩

/-- A step is a cycle under the environment's next input, a quiet one where there is none (log 7). -/
theorem step_cases {s t : State} (h : step s = .next t) :
    s.cfg.valid = true ∧ ((s.inputs = [] ∧ s.run ≠ .stuck ∧ s.cycle {} = .next t) ∨
      ∃ i rest, s.inputs = i :: rest ∧ State.cycle { s with inputs := rest } i = .next t) := by
  cases hc : s.cfg.valid with
  | false => simp [step, State.boundary, hc] at h
  | true =>
    refine ⟨rfl, ?_⟩
    cases hi : s.inputs with
    | nil =>
      by_cases hr : s.run = .stuck
      · simp [step, State.boundary, hc, hi, hr] at h
      · exact .inl ⟨rfl, hr, (step_of_no_inputs hc hi hr).symm.trans h⟩
    | cons i rest => exact .inr ⟨i, rest, rfl, (step_of_input hc hi).symm.trans h⟩

/-- What the actions of the environment leave (R34, R454). -/
theorem State.acted_notedBetween (s : State) (i : Input) (rest : List Input) (ns : List Nat) :
    ((s.acted i rest).notedBetween ns).scr = s.scr ∧ ((s.acted i rest).notedBetween ns).exm = s.exm ∧
    ((s.acted i rest).notedBetween ns).cfg = s.cfg ∧
    ((s.acted i rest).notedBetween ns).nmiPending = (s.nmiPending || i.nmi) ∧
    ((s.acted i rest).notedBetween ns).irqPending = (s.irqPending || i.irq) := by
  have hscr : (s.acted i rest).scr = s.scr ∧ (s.acted i rest).exm = s.exm ∧ (s.acted i rest).cfg = s.cfg ∧
      (s.acted i rest).nmiPending = (s.nmiPending || i.nmi) ∧ (s.acted i rest).irqPending = (s.irqPending || i.irq) := by
    unfold State.acted
    rw [State.foldl_externalWrite_eq]
    exact ⟨rfl, rfl, rfl, rfl, rfl⟩
  unfold State.notedBetween
  dsimp only
  split
  · exact hscr
  · exact hscr

/-- A bit of EXC after noting exceptions was set before, or is one of them. -/
theorem getLsbD_foldl_or {n : Nat} (ns : List Nat) (e : BitVec 64)
    (h : (ns.foldl (fun e k => e ||| 1#64 <<< k) e).getLsbD n = true) : e.getLsbD n = true ∨ n ∈ ns := by
  induction ns generalizing e with
  | nil => exact .inl h
  | cons k ns ih =>
    rcases ih _ h with h | h
    · rw [BitVec.getLsbD_or, getLsbD_one_shiftLeft, Bool.or_eq_true, Bool.and_eq_true, decide_eq_true_iff,
        decide_eq_true_iff] at h
      rcases h with h | ⟨-, rfl⟩
      · exact .inl h
      · exact .inr (.head _)
    · exact .inr (.tail _ h)

theorem State.acted_notedBetween_exc (s : State) (i : Input) (rest : List Input) (ns : List Nat) {n : Nat}
    (h : ((s.acted i rest).notedBetween ns).exc.getLsbD n = true) :
    s.exc.getLsbD n = true ∨
      n ∈ ns ∧ (n ∈ s.cfg.hwExceptions ∨ s.cfg.dsp.isSome = true ∧ 16 ≤ n ∧ n ≤ 19) := by
  have hexc : (s.acted i rest).exc = s.exc ∧ (s.acted i rest).cfg = s.cfg := by
    unfold State.acted
    rw [State.foldl_externalWrite_eq]
    exact ⟨rfl, rfl⟩
  unfold State.notedBetween at h
  dsimp only at h
  split at h
  · rw [hexc.1] at h
    exact .inl h
  · rcases getLsbD_foldl_or _ _ h with h | h
    · rw [hexc.1] at h
      exact .inl h
    · rw [List.mem_filter, hexc.2] at h
      obtain ⟨hn, ha⟩ := h
      simp only [Bool.or_eq_true, Bool.and_eq_true, decide_eq_true_iff] at ha
      exact .inr ⟨hn, ha.symm⟩

/-- What takes a running core to system mode (R500). -/
theorem State.runCycle_user {s t : State} (hs : s.systemMode = false) (h : s.runCycle = .next t)
    (ht : t.systemMode = true) :
    s.nmiPending = true ∨ s.Due ∨ (s.irqPending = true ∧ s.irqEnabled = true) ∨ t.run = .stuck := by
  rcases State.runCycle_cases h with ⟨hn, -⟩ | ⟨-, hd, -⟩ | ⟨-, hp, hi, -⟩ | rfl | ⟨w, hw⟩
  · exact .inl hn
  · exact .inr (.inl hd)
  · exact .inr (.inr (.inl ⟨hp, hi⟩))
  · rcases s.iBusError_cases with ⟨-, he⟩ | ⟨-, he, -⟩
    · rw [he] at ht
      simp [State.systemMode] at hs ht
      simp [hs] at ht
    · exact .inr (.inr (.inr (by rw [he])))
  · simp [State.execute_user hs hw] at ht

/-- What takes a waiting core to system mode (R406, R500). -/
theorem State.waitCycle_user {s : State} (hs : s.systemMode = false) (ht : s.waitCycle.systemMode = true) :
    s.nmiPending = true ∨ (s.irqPending = true ∧ s.irqEnabled = true) := by
  rcases s.waitCycle_cases with ⟨hn, -⟩ | ⟨-, hp, hi, -⟩ | ⟨-, -, h⟩ | ⟨-, -, h⟩ | ⟨-, h⟩
  · exact .inl hn
  · exact .inr ⟨hp, hi⟩
  · rw [h, State.systemMode, State.debugAfter_scr] at ht
    exact absurd ht (by rw [show s.wake.scr = s.scr from rfl]; exact Bool.eq_false_iff.1 hs)
  · rw [h] at ht
    exact absurd ht (Bool.eq_false_iff.1 hs)
  · rw [h] at ht
    exact absurd ht (Bool.eq_false_iff.1 hs)

/-- What takes a core to system mode in a step with an action of the environment (R500). -/
theorem State.cycle_user {s t : State} {i : Input} {rest : List Input} (hs : s.systemMode = false)
    (h : State.cycle { s with inputs := rest } i = .next t) (ht : t.systemMode = true) :
    let u := (s.acted i rest).notedBetween i.raise
    i.reset = true ∨ u.nmiPending = true ∨ u.Due ∨ (u.irqPending = true ∧ u.irqEnabled = true) ∨ t.run = .stuck := by
  intro u
  obtain ⟨hscr, -, -, hnmi, hirq⟩ := s.acted_notedBetween i rest i.raise
  obtain ⟨hscr', -, -, hnmi', hirq'⟩ := s.acted_notedBetween i rest []
  have hus : u.systemMode = false := by rw [State.systemMode, hscr]; exact hs
  rcases State.cycle_cases h with ⟨hr, -⟩ | ⟨-, hr, rfl⟩ | ⟨-, -, rfl⟩ | ⟨-, -, hrun⟩
  · exact .inl hr
  · refine .inr (.inr (.inr (.inr ?_)))
    rw [State.undetermined_run, State.sense_run]
    exact hr
  · rw [State.sense_latch] at ht
    have hs' : (s.acted i rest).systemMode = false := (congrArg (BitVec.getLsbD · 0) hscr').trans hs
    rcases State.waitCycle_user hs' ht with hn | ⟨hp, hi⟩
    · exact .inr (.inl (hnmi.trans (hnmi'.symm.trans hn)))
    · exact .inr (.inr (.inr (.inl ⟨hirq.trans (hirq'.symm.trans hp),
        (congrArg (BitVec.getLsbD · 3) (hscr.trans hscr'.symm)).trans hi⟩)))
  · rw [State.sense_latch, State.raiseEvents_eq_notedBetween] at hrun
    exact .inr (State.runCycle_user hus hrun ht)

/-- Settles O21: no instruction leaves user mode, and a step does so by an entry or a reset only. -/
theorem userModeStaysUser : Obligations.UserModeStaysUser := by
  refine ⟨fun i s t hs he => exec_user hs he, fun s t hs hi h ht => ?quiet, fun s t i rest hs hi h ht => ?input⟩
  case quiet =>
    obtain ⟨hc, ⟨-, hr, h⟩ | ⟨i, rest, hi', -⟩⟩ := step_cases h
    · have h' : State.cycle { s with inputs := [] } {} = .next t := by rw [← hi]; exact h
      obtain ⟨hscr, hexm, -, hnmi, hirq⟩ := s.acted_notedBetween {} [] []
      rcases State.cycle_user hs h' ht with h | h | ⟨he, n, hn, hb, hm⟩ | ⟨hp, hi⟩ | h
      · simp at h
      · rw [hnmi] at h
        exact .inl (by simpa using h)
      · rw [hscr] at he
        rw [hexm] at hm
        rcases s.acted_notedBetween_exc {} [] [] hb with hb | ⟨hb, -⟩
        · exact .inr (.inl ⟨he, n, hn, hb, hm⟩)
        · simp at hb
      · rw [hirq] at hp
        rw [State.irqEnabled, hscr] at hi
        exact .inr (.inr (.inl ⟨by simpa using hp, hi⟩))
      · exact .inr (.inr (.inr h))
    · simp [hi] at hi'
  case input =>
    obtain ⟨hc, ⟨hi', -, -⟩ | ⟨i', rest', hi', h⟩⟩ := step_cases h
    · simp [hi] at hi'
    · obtain ⟨rfl, rfl⟩ : i = i' ∧ rest = rest' := by simpa [hi] using hi'
      obtain ⟨hscr, hexm, -, hnmi, hirq⟩ := s.acted_notedBetween i rest i.raise
      rcases State.cycle_user hs h ht with h | h | ⟨he, n, hn, hb, hm⟩ | ⟨hp, hi⟩ | h
      · exact .inl h
      · rw [hnmi, Bool.or_eq_true] at h
        exact .inr (.inl h)
      · rw [hscr] at he
        rw [hexm] at hm
        exact .inr (.inr (.inl ⟨he, n, hn, s.acted_notedBetween_exc i rest i.raise hb, hm⟩))
      · rw [hirq, Bool.or_eq_true] at hp
        rw [State.irqEnabled, hscr] at hi
        exact .inr (.inr (.inr (.inl ⟨hp, hi⟩)))
      · exact .inr (.inr (.inr (.inr h)))

end Sys2Proof.Machine

/-! PROOFS about invalid words and the transfers of implementation-specific files (10_state.md R65, 60_exceptions.md
R459). -/
namespace Sys2Proof.Machine

/-- The word of a transfer of an implementation-specific file: bits 31:30 and 26:24 (R65, R147). -/
theorem extraWord_iff (w : Word) : w &&& 0xC7000000#32 = 0xC1000000#32 ↔
    (Fields.ofWord w).group = 3 ∧ (Fields.ofWord w).b26 = false ∧ (Fields.ofWord w).b25 = false ∧
      (Fields.ofWord w).b24 = true := by
  constructor
  · intro h
    have h' : w &&& 0xC7000000#32 = 0xC1000000#32 &&& 0xC7000000#32 := h
    exact ⟨extractLsb'_eq_of_and_eq h' 30 (by decide), getLsbD_eq_of_and_eq h' (k := 26) (by decide),
      getLsbD_eq_of_and_eq h' (k := 25) (by decide), getLsbD_eq_of_and_eq h' (k := 24) (by decide)⟩
  · rintro ⟨hg, h26, h25, h24⟩
    rw [← Fields.toWord_ofWord w, Laws.TableRow.mask_C7000000]
    simp only [Laws.TableRow.keep, hg, h26, h25, h24, Bool.false_eq_true, if_false, ite_true, ite_self]
    rfl

theorem findExtra_eq_none {files : List ExtraFile} {aux : BitVec 4}
    (h : ∀ f ∈ files, f.toGpr ≠ some aux ∧ f.fromGpr ≠ some aux) (n : Nat) : findExtra files n aux = none := by
  induction files generalizing n with
  | nil => rfl
  | cons f rest ih =>
    obtain ⟨hto, hfrom⟩ := h f List.mem_cons_self
    rw [findExtra, if_neg hto, if_neg hfrom]
    exact ih (fun g hg => h g (List.mem_cons_of_mem f hg)) (n + 1)

/-- The AUXCODEs of the implementation-specific files. -/
def extraCodes (files : List ExtraFile) : List (BitVec 4) :=
  files.flatMap fun f => f.toGpr.toList ++ f.fromGpr.toList

/-- The AUXCODE of a file belongs to no other one, so it finds that file (R65). -/
theorem findExtra_of_code {files : List ExtraFile} (hnodup : (extraCodes files).Nodup) {k : Nat} {f : ExtraFile}
    (hf : files[k]? = some f) {aux : BitVec 4} (n : Nat) :
    (f.toGpr = some aux → findExtra files n aux = some (n + k, f, true)) ∧
    (f.fromGpr = some aux → findExtra files n aux = some (n + k, f, false)) := by
  induction files generalizing n k with
  | nil => simp at hf
  | cons g rest ih =>
    rw [extraCodes, List.flatMap_cons, List.nodup_append] at hnodup
    obtain ⟨hg, hrest, hdisjoint⟩ := hnodup
    cases k with
    | zero =>
      obtain rfl : g = f := by simpa using hf
      refine ⟨fun h => by rw [findExtra, if_pos h]; rfl, fun h => ?_⟩
      have hne : g.toGpr ≠ some aux := by
        intro h'
        simp [h, h'] at hg
      rw [findExtra, if_neg hne, if_pos h]
      rfl
    | succ k =>
      have hf' : rest[k]? = some f := by simpa using hf
      have hmem : f ∈ rest := List.mem_of_getElem? hf'
      have hskip : aux ∈ extraCodes rest → findExtra (g :: rest) n aux = findExtra rest (n + 1) aux := by
        intro hin
        have hne : aux ∉ g.toGpr.toList ++ g.fromGpr.toList := fun h => hdisjoint aux h aux hin rfl
        rw [List.mem_append, Option.mem_toList, Option.mem_toList, not_or] at hne
        rw [findExtra, if_neg hne.1, if_neg hne.2]
      have hcodes : ∀ a, f.toGpr = some a ∨ f.fromGpr = some a → a ∈ extraCodes rest := by
        intro a ha
        refine List.mem_flatMap.2 ⟨f, hmem, ?_⟩
        rw [List.mem_append, Option.mem_toList, Option.mem_toList]
        exact ha
      obtain ⟨hto, hfrom⟩ := ih hrest hf' (n + 1)
      have hadd : n + 1 + k = n + (k + 1) := by omega
      rw [hadd] at hto hfrom
      exact ⟨fun h => (hskip (hcodes aux (.inl h))).trans (hto h), fun h => (hskip (hcodes aux (.inr h))).trans (hfrom h)⟩

/-- The step of a core outside debug mode on a word that decodes to nothing (R65, R459). -/
theorem step_of_undecoded {s : State} {w : Word} (h : s.ReadyToFetch) (hdebug : s.debugMode = false)
    (hw : s.quiet.fetch = some w) (hinvalid : InvalidWord w) :
    step s = .next (((s.quiet.executing w).extraTransfer w).getD ((s.quiet.executing w).skipped 2)) := by
  obtain ⟨e, he⟩ := (invalidWords w).1.2 hinvalid
  have hdebug' : s.quiet.debugMode = false := hdebug
  rw [(step_of_readyToFetch h).2 w hw]
  simp only [State.execute, he, hdebug', State.raiseSkip_eq_skipped]
  rfl

/-- Settles O19: such a word finds no file. -/
theorem invalidInstructionTraps : Obligations.InvalidInstructionTraps := by
  intro s w h hdebug hw hinvalid hextra
  rw [step_of_undecoded h hdebug hw hinvalid]
  have hnone : (s.quiet.executing w).extraTransfer w = none := by
    unfold State.extraTransfer
    dsimp only
    split
    · next hg =>
      exact congrArg (Option.map _) (findExtra_eq_none (hextra ((extraWord_iff w).2 hg)) 0)
    · rfl
  rw [hnone]
  rfl

/-! ## The optional register files -/

theorem Config.valid_files {c : Config} (h : c.valid = true) : c.filesValid = true ∧ c.extraValid = true := by
  simp only [Config.valid, Bool.and_eq_true] at h
  exact ⟨h.1.1.1.1.1.1.1.1, h.1.1.1.1.1.1.1.2⟩

theorem Config.valid_gpr {c : Config} (h : c.valid = true) :
    c.gprw.width ≤ c.gprwPhys ∧ c.gprwPhys ≤ 1024 ∧ 3 ≤ c.ngpr ∧ c.ngpr ≤ 64 ∧ 1 ≤ c.nbanks ∧ c.nbanks ≤ 16 := by
  have hf := (Config.valid_files h).1
  simp only [Config.filesValid, Bool.and_eq_true, decide_eq_true_iff] at hf
  exact hf.1.1

theorem Config.valid_fpr {c : Config} (h : c.valid = true) {f : FprFile} (hf : c.fpr = some f) :
    8 ≤ f.width ∧ f.width ≤ 1024 := by
  have hv := (Config.valid_files h).1
  simp only [Config.filesValid, hf, Bool.and_eq_true, decide_eq_true_iff] at hv
  exact hv.1.2.2.2

theorem Config.valid_extra {c : Config} (h : c.valid = true) :
    (extraCodes c.extraFiles).Nodup ∧ ∀ a ∈ extraCodes c.extraFiles, 5 ≤ a.toNat ∧ a.toNat ≤ 13 := by
  have hv := (Config.valid_files h).2
  simp only [Config.extraValid, Bool.and_eq_true, decide_eq_true_iff, List.all_eq_true] at hv
  exact ⟨hv.2, hv.1.2⟩

/-- The Table 1 part of an FP register is a machine mode (R64). -/
theorem tablePart_mode {n : Nat} (h8 : 8 ≤ n) :
    ∃ part : MMode, part.width = tablePart n ∧ part.width ≤ n ∧ (n < 2 * part.width ∨ part = .s4) := by
  unfold tablePart
  split
  · next h => exact ⟨.s4, rfl, h, .inr rfl⟩
  split
  · next h₁ h => exact ⟨.s2, rfl, h, .inl (Nat.not_le.1 h₁)⟩
  split
  · next h₁ h => exact ⟨.s1, rfl, h, .inl (Nat.not_le.1 h₁)⟩
  split
  · next h₁ h => exact ⟨.q, rfl, h, .inl (Nat.not_le.1 h₁)⟩
  split
  · next h₁ h => exact ⟨.d, rfl, h, .inl (Nat.not_le.1 h₁)⟩
  split
  · next h₁ h => exact ⟨.w, rfl, h, .inl (Nat.not_le.1 h₁)⟩
  split
  · next h₁ h => exact ⟨.h, rfl, h, .inl (Nat.not_le.1 h₁)⟩
  · next h₁ => exact ⟨.b, rfl, h8, .inl (Nat.not_le.1 h₁)⟩

theorem State.FilesOk.dsp_length {s : State} (h : s.FilesOk) {f : DspFile} (hf : s.cfg.dsp = some f) :
    s.dsp.length = f.count := by
  obtain ⟨-, hd, -⟩ := h
  rw [hf] at hd
  exact hd.1

theorem State.FilesOk.fpr_length {s : State} (h : s.FilesOk) {f : FprFile} (hf : s.cfg.fpr = some f) :
    s.fpr.length = f.count := by
  obtain ⟨-, -, hd, -⟩ := h
  rw [hf] at hd
  exact hd.1

theorem State.FilesOk.extra_length {s : State} (h : s.FilesOk) {k : Nat} {f : ExtraFile}
    (hf : s.cfg.extraFiles[k]? = some f) : (s.extra.getD k []).length = f.count ∧ k < s.extra.length := by
  obtain ⟨-, -, -, hlen, he⟩ := h
  refine ⟨(he k f hf).1, ?_⟩
  rw [hlen]
  exact (List.getElem?_eq_some_iff.1 hf).1

/-- A raw read returns the low bits of the register (R214). -/
theorem State.readFpr_bit (s : State) (f : FprFile) (i : RegNum) {w b : Nat} (hb : b < w) (hb' : b < f.width) :
    (s.readFpr f i w).getLsbD b = (s.fpr.getD i.toNat 0).getLsbD b := by
  unfold State.readFpr
  dsimp only
  split
  · rw [BitVec.getLsbD_ofNat, decide_eq_true hb, Bool.true_and]
    rfl
  · rw [BitVec.getLsbD_ofNat, decide_eq_true hb, Bool.true_and, Nat.add_comm,
      Nat.testBit_two_pow_mul_add _ (Nat.mod_lt _ (Nat.two_pow_pos _)), if_pos hb', Nat.testBit_mod_two_pow,
      decide_eq_true hb', Bool.true_and]
    rfl

/-- A raw write replaces the low bits of the register (R215). -/
theorem State.writeFpr_bits {w : Nat} (s : State) (f : FprFile) (i : RegNum) (v : BitVec w) (hi : i.toNat < s.fpr.length) :
    (∀ b, b < 1024 → ((s.writeFpr f i v).fpr.getD i.toNat 0).getLsbD b =
      if b < min w f.width then v.getLsbD b else (s.fpr.getD i.toNat 0).getLsbD b) ∧
    ∀ x, x ≠ i.toNat → (s.writeFpr f i v).fpr.getD x 0 = s.fpr.getD x 0 := by
  constructor
  · intro b hb
    rw [State.writeFpr, getD_set_same hi, setLow_bit _ _ _ _ hb]
    rfl
  · intro x hx
    exact getD_set_other s.fpr (Ne.symm hx) _

/-- A word with the AUXCODE of REG <- file that passes its checks (R65). -/
theorem State.extraTransfer_toGpr {s : State} {w : Word} (hw : w &&& 0xC7000000#32 = 0xC1000000#32) {k : Nat}
    {f : ExtraFile} (hf : findExtra s.cfg.extraFiles 0 (w.extractLsb' 14 4) = some (k, f, true))
    (hm : (MMode.ofCode (w.extractLsb' 27 3)).width ≤ s.cfg.maxXfer.width)
    (hd : (w.extractLsb' 18 6).toNat < s.cfg.ngpr) (hr : (w.extractLsb' 0 6).toNat < f.count) :
    s.extraTransfer w = some (s.writeGpr (w.extractLsb' 18 6)
      (s.readExtra k f (w.extractLsb' 0 6) (MMode.ofCode (w.extractLsb' 27 3)).width)).advance := by
  unfold State.extraTransfer
  rw [if_pos ((extraWord_iff w).1 hw), show findExtra s.cfg.extraFiles 0 (Fields.ofWord w).aux = _ from hf]
  refine congrArg some (State.checkOther_pass ?_ ?_ _)
  · exact decide_eq_true hm
  · exact Bool.and_eq_true_iff.2 ⟨(s.gprsExist_iff _).2 fun x hx => (List.mem_singleton.1 hx) ▸ hd, decide_eq_true hr⟩

/-- A word with the AUXCODE of file <- REG that passes its checks (R65). -/
theorem State.extraTransfer_fromGpr {s : State} {w : Word} (hw : w &&& 0xC7000000#32 = 0xC1000000#32) {k : Nat}
    {f : ExtraFile} (hf : findExtra s.cfg.extraFiles 0 (w.extractLsb' 14 4) = some (k, f, false))
    (hm : (MMode.ofCode (w.extractLsb' 27 3)).width ≤ s.cfg.maxXfer.width)
    (hd : (w.extractLsb' 18 6).toNat < f.count) (hr : (w.extractLsb' 0 6).toNat < s.cfg.ngpr) :
    s.extraTransfer w = some (s.writeExtra k f (w.extractLsb' 18 6)
      (s.readGpr (w.extractLsb' 0 6) (MMode.ofCode (w.extractLsb' 27 3)).width)).advance := by
  unfold State.extraTransfer
  rw [if_pos ((extraWord_iff w).1 hw), show findExtra s.cfg.extraFiles 0 (Fields.ofWord w).aux = _ from hf]
  refine congrArg some (State.checkOther_pass ?_ ?_ _)
  · exact decide_eq_true hm
  · exact Bool.and_eq_true_iff.2 ⟨decide_eq_true hd, (s.gprsExist_iff _).2 fun x hx => (List.mem_singleton.1 hx) ▸ hr⟩

/-- A word of an implementation-specific file is one of those R156 lists (item 4). -/
theorem invalidWord_of_extra {c : Config} (hc : c.valid = true) {k : Nat} {f : ExtraFile}
    (hf : c.extraFiles[k]? = some f) {w : Word} (hw : w &&& 0xC7000000#32 = 0xC1000000#32)
    (hcode : f.toGpr = some (w.extractLsb' 14 4) ∨ f.fromGpr = some (w.extractLsb' 14 4)) : InvalidWord w := by
  have hmem : w.extractLsb' 14 4 ∈ extraCodes c.extraFiles := by
    refine List.mem_flatMap.2 ⟨f, List.mem_of_getElem? hf, ?_⟩
    rw [List.mem_append, Option.mem_toList, Option.mem_toList]
    exact hcode
  have h' : w &&& 0xC7000000#32 = 0xC1000000#32 &&& 0xC7000000#32 := hw
  exact .inr (.inr (.inr (.inl ⟨getLsbD_eq_of_and_eq h' (k := 31) (by decide), getLsbD_eq_of_and_eq h' (k := 24) (by decide),
    getLsbD_eq_of_and_eq h' (k := 26) (by decide), (Config.valid_extra hc).2 _ hmem⟩)))

/-- Settles O9: the files by the rules of R25 and R26, the transfers of the specific ones by their AUXCODE. -/
theorem optionalRegisterFiles : Obligations.OptionalRegisterFiles := by
  intro s hc hfiles hbank
  have hgpr := Config.valid_gpr hc
  refine ⟨fun f i m v hf hi => ?dsp, fun f i m v hf hi => ?raw, fun i m v x hf hi => ?fpGpr, fun f i m v x hf hi => ?fp,
    fun k f i m v hf hi => ?extra, ?transfer⟩
  case dsp =>
    exact ⟨readFile_fileRead _ _ _ (MMode.width_pos f.width) _ _, rfl,
      writeFile_fileWritten _ _ (MMode.width_le f.width) (by omega) (by rw [hfiles.dsp_length hf]; omega)⟩
  case raw =>
    have hlen : i.toNat < s.fpr.length := by rwa [hfiles.fpr_length hf]
    exact ⟨fun b hb hb' => s.readFpr_bit f i hb hb', rfl, List.length_set, s.writeFpr_bits f i v hlen⟩
  case fpGpr =>
    have hread : s.readFp i = readFile s.gpr s.bankBase s.cfg.ngpr s.cfg.gprwPhys s.cfg.fpw i.toNat := by
      simp only [State.readFp, hf]
    have hwrite : s.writeFp i v =
        { s with gpr := writeFile s.gpr s.bankBase s.cfg.ngpr s.cfg.gprwPhys i.toNat v } := by
      simp only [State.writeFp, hf]
    have hpos : 0 < s.cfg.gprwPhys := (MMode.width_pos s.cfg.gprw).trans_le hgpr.1
    rw [hread, hwrite]
    exact ⟨readFile_fileRead _ _ _ hpos _ _, rfl, writeFile_fileWritten _ _ hgpr.2.1 (by omega) hbank,
      by simp only [State.readFpPart, hf], by simp only [State.writeFpPart, hf]⟩
  case fp =>
    obtain ⟨hw8, hw1024⟩ := Config.valid_fpr hc hf
    obtain ⟨part, hpart, hle, hmax⟩ := tablePart_mode hw8
    have hlen : 0 + f.count ≤ s.fpr.length := by rw [hfiles.fpr_length hf]; omega
    have hread : s.readFp i = readFile s.fpr 0 f.count f.width s.cfg.fpw i.toNat := by
      simp only [State.readFp, hf]
    have hwrite : s.writeFp i v = { s with fpr := writeFile s.fpr 0 f.count f.width i.toNat v } := by
      simp only [State.writeFp, hf]
    have hreadPart : s.readFpPart i m.width = readFile s.fpr 0 f.count part.width m.width i.toNat := by
      simp only [State.readFpPart, hf, hpart]
    have hwritePart : s.writeFpPart i x = { s with fpr := writeFile s.fpr 0 f.count part.width i.toNat x } := by
      simp only [State.writeFpPart, hf, hpart]
    rw [hread, hwrite, hreadPart, hwritePart]
    exact ⟨readFile_fileRead _ _ _ (by omega) _ _, rfl, writeFile_fileWritten _ _ hw1024 (by omega) hlen, part, hle, hmax,
      readFile_fileRead _ _ _ (MMode.width_pos part) _ _, rfl, writeFile_fileWritten _ _ (MMode.width_le part) (by omega) hlen⟩
  case extra =>
    obtain ⟨hlen, hk⟩ := hfiles.extra_length hf
    have hset : (s.writeExtra k f i v).extra.getD k [] =
        writeFile (s.extra.getD k []) 0 f.count f.width.width i.toNat v := by
      simp [State.writeExtra, List.getD_eq_getElem?_getD, hk]
    refine ⟨readFile_fileRead _ _ _ (MMode.width_pos f.width) _ _, rfl, List.length_set, ?_, fun j hj => ?_⟩
    · rw [hset]
      exact writeFile_fileWritten _ _ (MMode.width_le f.width) (by omega) (by rw [hlen]; omega)
    · simp [State.writeExtra, List.getD_eq_getElem?_getD, List.getElem?_set_ne (Ne.symm hj)]
  case transfer =>
    intro k f w hs hdebug hw hf hmask e m d r hm
    obtain ⟨hto, hfrom⟩ := findExtra_of_code (Config.valid_extra hc).1 hf (aux := w.extractLsb' 14 4) 0
    rw [Nat.zero_add] at hto hfrom
    refine ⟨fun hcode hd hr => ?_, fun hcode hd hr => ?_⟩
    · rw [step_of_undecoded hs hdebug hw (invalidWord_of_extra hc hf hmask (.inl hcode)),
        State.extraTransfer_toGpr (s := s.quiet.executing w) hmask (hto hcode) hm hd hr]
      rfl
    · rw [step_of_undecoded hs hdebug hw (invalidWord_of_extra hc hf hmask (.inr hcode)),
        State.extraTransfer_fromGpr (s := s.quiet.executing w) hmask (hfrom hcode) hm hd hr]
      rfl

end Sys2Proof.Machine

/-! PROOFS that the invariant holds after reset and that every step keeps it: once for each operation on the state, then
for each kind of instruction and each part of the step. -/
namespace Sys2Proof.Machine

/-! ## The invariant after a reset -/

theorem fileOk_replicate (count width : Nat) : FileOk (List.replicate count 0) count width := by
  refine ⟨List.length_replicate, fun r hr => ?_⟩
  rw [List.eq_of_mem_replicate hr, BitVec.ofNat_eq_ofNat, BitVec.toNat_zero]
  exact Nat.two_pow_pos _

theorem filesOk_resetWith (c : Config) : (State.resetWith c).FilesOk := by
  refine ⟨fileOk_replicate _ _, ?_, ?_, List.length_map _, fun k f hf => ?_⟩
  · simp only [State.resetWith]
    cases c.dsp with
    | none => rfl
    | some f => exact fileOk_replicate _ _
  · simp only [State.resetWith]
    cases c.fpr with
    | none => rfl
    | some f => exact fileOk_replicate _ _
  · have hf' : c.extraFiles[k]? = some f := hf
    have h : (State.resetWith c).extra.getD k [] = List.replicate f.count 0 := by
      simp [State.resetWith, List.getD_eq_getElem?_getD, hf']
    rw [h]
    exact fileOk_replicate _ _

theorem Config.valid_waitw {c : Config} (h : c.valid = true) : 20 ≤ c.waitw := by
  simp only [Config.valid, Bool.and_eq_true, decide_eq_true_iff] at h
  exact h.1.1.1.1.2.2.2.2.2

theorem inv_resetWith {c : Config} (h : c.valid = true) : (State.resetWith c).Inv where
  configuration := h
  files := filesOk_resetWith c
  memoryForm := rfl
  memoryBelow := rfl
  counter := Nat.two_pow_pos _
  bank _ := by
    have hbank : ((State.resetWith c).scr.extractLsb' 4 4).toNat = 0 := by simp [State.resetWith]
    rw [hbank]
    exact (Config.valid_gpr h).2.2.2.2.1
  nmiUnmasked := by simp [State.resetWith]
  timerWidth := Nat.two_pow_pos _
  timerCounts := by simp [State.resetWith]
  reservation r hr := by simp [State.resetWith] at hr

/-- Settles O14: the configuration the spec allows is all the reset state needs. -/
theorem resetMeetsInv : Obligations.ResetMeetsInv :=
  ⟨inv_resetWith (by decide), fun _ h => inv_resetWith h⟩

/-! ## The register files -/

theorem FileOk.writeFile {file : List Reg} {count width : Nat} (h : FileOk file count width) (base n : Nat) {c w : Nat}
    (hc : c ≤ width) (i : Nat) (v : BitVec w) : FileOk (writeFile file base n c i v) count width :=
  ⟨(writeFile_length ..).trans h.1, writeFile_bound base n i v h.2 hc⟩

theorem State.FilesOk.withGpr {s : State} (h : s.FilesOk) {g : List Reg}
    (hg : FileOk g (s.cfg.nbanks * s.cfg.ngpr) s.cfg.gprwPhys) : State.FilesOk { s with gpr := g } := ⟨hg, h.2⟩

theorem State.FilesOk.withFpr {s : State} (h : s.FilesOk) {f : FprFile} (hf : s.cfg.fpr = some f) {g : List Reg}
    (hg : FileOk g f.count f.width) : State.FilesOk { s with fpr := g } := by
  obtain ⟨h₁, h₂, -, h₄⟩ := h
  refine ⟨h₁, h₂, ?_, h₄⟩
  simp only [hf]
  exact hg

theorem State.FilesOk.withDsp {s : State} (h : s.FilesOk) {f : DspFile} (hf : s.cfg.dsp = some f) {g : List Reg}
    (hg : FileOk g f.count f.width.width) : State.FilesOk { s with dsp := g } := by
  obtain ⟨h₁, -, h₃⟩ := h
  refine ⟨h₁, ?_, h₃⟩
  simp only [hf]
  exact hg

theorem State.FilesOk.fprOk {s : State} (h : s.FilesOk) {f : FprFile} (hf : s.cfg.fpr = some f) :
    FileOk s.fpr f.count f.width := by
  obtain ⟨-, -, hd, -⟩ := h
  rwa [hf] at hd

theorem State.FilesOk.dspOk {s : State} (h : s.FilesOk) {f : DspFile} (hf : s.cfg.dsp = some f) :
    FileOk s.dsp f.count f.width.width := by
  obtain ⟨-, hd, -⟩ := h
  rwa [hf] at hd

/-! ## The operations on the state -/

theorem State.Inv.writeGprAt {s : State} (h : s.Inv) {w : Nat} (i : Nat) (v : BitVec w) : (s.writeGprAt i v).Inv :=
  { h with files := h.files.withGpr (h.files.1.writeFile _ _ (Config.valid_gpr h.configuration).1 i v) }

theorem State.Inv.writeGpr {s : State} (h : s.Inv) {w : Nat} (d : RegNum) (v : BitVec w) : (s.writeGpr d v).Inv :=
  h.writeGprAt d.toNat v

theorem State.Inv.applyIndex {s : State} (h : s.Inv) {w : Nat} (x : Option (RegNum × BitVec w)) :
    (s.applyIndex x).Inv := by
  rcases x with _ | ⟨r, v⟩
  exacts [h, h.writeGpr r v]

theorem State.Inv.writeFp {s : State} (h : s.Inv) {w : Nat} (d : RegNum) (v : BitVec w) : (s.writeFp d v).Inv := by
  unfold State.writeFp
  split
  · next f hf => exact { h with files := h.files.withFpr hf ((h.files.fprOk hf).writeFile _ _ le_rfl _ v) }
  · exact { h with files := h.files.withGpr (h.files.1.writeFile _ _ le_rfl _ v) }

theorem State.Inv.writeFpPart {s : State} (h : s.Inv) {w : Nat} (d : RegNum) (v : BitVec w) :
    (s.writeFpPart d v).Inv := by
  unfold State.writeFpPart
  split
  · next f hf =>
    obtain ⟨part, hpart, hle, -⟩ := tablePart_mode (Config.valid_fpr h.configuration hf).1
    exact { h with files := h.files.withFpr hf ((h.files.fprOk hf).writeFile _ _ (hpart ▸ hle) _ v) }
  · exact h.writeGpr d v

theorem State.Inv.setFlags {s : State} (h : s.Inv) (f : EstFlags) : (s.setFlags f).Inv := { h with }

theorem State.Inv.advance {s : State} (h : s.Inv) : s.advance.Inv := { h with counter := s.icWrap_lt _ }

theorem State.Inv.note {s : State} (h : s.Inv) (mask : BitVec 64) : (s.note mask).Inv := { h with }

theorem State.Inv.skipped {s : State} (h : s.Inv) (n : Nat) : (s.skipped n).Inv :=
  { h with counter := s.icWrap_lt _ }

theorem State.Inv.dBusError {s : State} (h : s.Inv) : s.dBusError.Inv := by
  unfold State.dBusError
  dsimp only
  split <;> exact { (h.note _).advance with }

theorem State.Inv.withMem {s : State} (h : s.Inv) {ps : List Nat} (hps : ∀ p ∈ ps, p < 2 ^ s.cfg.paw) (bs : List Byte) :
    State.Inv { s with mem := memSetAll s.mem ps bs } :=
  { h with memoryForm := Memory.wf_memSetAll h.memoryForm ps bs,
           memoryBelow := Memory.below_memSetAll h.memoryBelow hps bs }

theorem State.Inv.withoutResv {s : State} (h : s.Inv) : State.Inv { s with resv := none } :=
  { h with reservation := fun _ hr => by simp at hr }

theorem State.effective_lt (s : State) (m : MMode) (x : Addr) : s.effective m x < 2 ^ s.cfg.paw := by
  cases x <;> exact Nat.mod_lt _ (Nat.two_pow_pos _)

/-! ## Arithmetic/logic instructions -/

theorem WriteBack.inv {c : Config} {i : Instr} {f : State → State} (hf : WriteBack c i f) {u : State} (h : u.Inv) :
    (f u).Inv := by
  cases hf with
  | flags f => exact h.setFlags f
  | gpr v f hw => exact (h.writeGpr _ v).setFlags f
  | gprPair j q r f hj => exact ((h.writeGpr _ q).writeGprAt _ r).setFlags f
  | fp v f hfp => exact (h.writeFp _ v).setFlags f
  | fpPart m v f hfp => exact (h.writeFpPart _ v).setFlags f

theorem State.Inv.complete {s : State} (h : s.Inv) (mask : BitVec 64) {f : State → State}
    (hf : ∀ u : State, u.Inv → (f u).Inv) : (s.complete mask f).Inv := by
  rcases s.complete_outcomes mask f with he | ⟨-, he⟩ | ⟨-, he⟩ <;> rw [he]
  · exact (hf s h).advance
  · exact (hf _ (h.note mask)).advance
  · exact { (h.note mask).advance with }

/-! ## Data transfers -/

theorem LoadOutcome.inv {s t : State} {locked : Bool} {m : MMode} {d : RegNum} {x : Addr}
    (ht : LoadOutcome s locked m d x t) (h : s.Inv) : t.Inv := by
  cases ht with
  | failed => exact h.dBusError
  | loaded v ps hps =>
    have hw := (h.applyIndex (s.indexWrite m x)).writeGpr d v
    refine State.Inv.advance { hw with reservation := fun r hr => ?_ }
    have hcfg : ((s.applyIndex (s.indexWrite m x)).writeGpr d v).cfg = s.cfg := by simp
    cases locked with
    | true =>
      obtain rfl : (⟨s.effective m x, m.bytes, ps⟩ : Reservation) = r := Option.some.inj hr
      refine ⟨?_, State.physRange_length hps⟩
      rw [show ∀ z : Option Reservation,
        ({ (s.applyIndex (s.indexWrite m x)).writeGpr d v with resv := z } : State).cfg = s.cfg from fun _ => hcfg]
      exact s.effective_lt m x
    | false =>
      rw [show ∀ z : Option Reservation,
        ({ (s.applyIndex (s.indexWrite m x)).writeGpr d v with resv := z } : State).cfg = s.cfg from fun _ => hcfg]
      exact h.reservation r hr

theorem StoreOutcome.inv {s t : State} {m : MMode} {x : Addr} (ht : StoreOutcome s m x t) (h : s.Inv) : t.Inv := by
  cases ht with
  | failed => exact h.dBusError
  | stored ps bs hps => exact ((h.withMem (State.physRange_lt hps) bs).applyIndex _).advance

theorem StoreCondOutcome.inv {s t : State} {m : MMode} {d : RegNum} {x : Addr} (ht : StoreCondOutcome s m d x t)
    (h : s.Inv) : t.Inv := by
  cases ht with
  | failed => exact h.dBusError
  | stored ps bs hps =>
    exact (((h.withMem (State.physRange_lt hps) bs).withoutResv.applyIndex (s.indexWrite m x)).writeGpr d _).advance
  | refused => exact ((h.withoutResv.applyIndex (s.indexWrite m x)).writeGpr d _).advance

/-- A new SCR that passes the check of the bank names a bank that exists (R461). -/
theorem State.bank_of_badBank {s : State} {scr : Word} (h : (s.scr.extractLsb' 4 4).toNat < s.cfg.nbanks)
    (hb : s.badBank scr = false) : (scr.extractLsb' 4 4).toNat < s.cfg.nbanks := by
  by_contra hc
  have hne : scr.extractLsb' 4 4 ≠ s.scr.extractLsb' 4 4 := fun he => hc (he ▸ h)
  exact absurd ((s.badBank_iff scr).2 ⟨hne, Nat.le_of_not_lt hc⟩) (by simp [hb])

theorem SpcOutcome.inv {s t : State} {m : MMode} {d r : RegNum} (ht : SpcOutcome s m d r t) (h : s.Inv)
    (hr : s.run ≠ .stuck) : t.Inv := by
  cases ht with
  | refused n hn => exact h.skipped n
  | written hd huser hbank =>
    have hnew : (s.writeSpc d (s.readGpr r m.width)).Inv :=
      { h with
        bank := fun _ => by
          by_cases h15 : 15 ∈ spcTouched d m.width
          · exact State.bank_of_badBank (s := s) (h.bank hr) (hbank h15)
          · rw [State.writeSpc_scr_of_not_touched s d _ h15]
            exact h.bank hr
        nmiUnmasked := State.writeSpc_exm_bit_zero s d _ }
    unfold State.afterSpcWrite
    split
    · exact { hnew with counter := Nat.two_pow_pos _ }
    · exact hnew.advance

theorem TransferOutcome.inv {s t : State} {i : Instr} (ht : TransferOutcome s t i) (h : s.Inv) (hr : s.run ≠ .stuck) :
    t.Inv := by
  cases ht with
  | load ht => exact ht.inv h
  | store ht => exact ht.inv h
  | storeCond ht => exact ht.inv h
  | gpr ht => obtain ⟨v, rfl⟩ := ht; exact (h.writeGpr _ v).advance
  | spc ht => exact ht.inv h hr
  | dsp ht =>
    obtain ⟨f, hf, rfl⟩ := ht
    exact State.Inv.advance { h with files := h.files.withDsp hf ((h.files.dspOk hf).writeFile _ _ le_rfl _ _) }
  | fpr ht =>
    obtain ⟨f, hf, rfl⟩ := ht
    obtain ⟨hlen, hbound⟩ := h.files.fprOk hf
    refine State.Inv.advance { h with files := h.files.withFpr hf ⟨List.length_set.trans hlen, fun r hr => ?_⟩ }
    rcases List.mem_or_eq_of_mem_set hr with hr | rfl
    · exact hbound r hr
    · refine setLow_lt _ ?_ (Nat.min_le_right _ _)
      rcases getD_mem_or_default s.fpr _ with hm | h0
      · exact hbound _ hm
      · rw [h0, BitVec.ofNat_eq_ofNat, BitVec.toNat_zero]
        exact Nat.two_pow_pos _

/-! ## Control instructions -/

/-- A bit below bit 4 leaves the bank (R52). -/
theorem bank_setBit (scr : Word) {k : Nat} (hk : k < 4) (b : Bool) :
    (setBit scr k b).extractLsb' 4 4 = scr.extractLsb' 4 4 := by
  apply BitVec.eq_of_getLsbD_eq
  intro j hj
  rw [BitVec.getLsbD_extractLsb', BitVec.getLsbD_extractLsb', getLsbD_setBit, if_neg (by omega)]

theorem bank_restoreScr (scr : Word) (b : SavedBits) : (restoreScr scr b).extractLsb' 4 4 = scr.extractLsb' 4 4 := by
  simp only [restoreScr, bank_setBit _ (show 0 < 4 by decide), bank_setBit _ (show 2 < 4 by decide),
    bank_setBit _ (show 3 < 4 by decide)]

theorem bank_restored (scr : Word) (b : Option SavedBits) :
    ((b.map (restoreScr scr)).getD scr).extractLsb' 4 4 = scr.extractLsb' 4 4 := by
  cases b with
  | none => rfl
  | some b => exact bank_restoreScr scr b

theorem bank_restoredIrq (scr : Word) (b : Option Bool) :
    ((b.map (restoreIrq scr)).getD scr).extractLsb' 4 4 = scr.extractLsb' 4 4 := by
  cases b with
  | none => rfl
  | some b => exact bank_setBit scr (by decide) b

/-- A new SCR with a bank that exists, a new IC, no reservation: what an entry and a return do. -/
theorem State.Inv.transferred {s : State} (h : s.Inv) {scr : Word}
    (hb : s.run ≠ .stuck → (scr.extractLsb' 4 4).toNat < s.cfg.nbanks) (x : BitVec 64) :
    State.Inv { s with scr := scr, ic := s.icWrap x, resv := none } :=
  { h with counter := s.icWrap_lt x, bank := hb, reservation := fun _ hr => by simp at hr }

theorem State.Inv.leave {s : State} (h : s.Inv) (handler : Handler) (p : Bool) : (s.leave handler p).Inv := by
  cases handler
  case nmi =>
    have hs := h.transferred (scr := (s.savNmi.map (restoreScr s.scr)).getD s.scr)
      (fun hr => by rw [bank_restored]; exact h.bank hr) (if p then s.nrp - 1 else s.nrp)
    exact { hs with }
  case exception =>
    have hs := h.transferred (scr := (s.savExc.map (restoreScr s.scr)).getD s.scr)
      (fun hr => by rw [bank_restored]; exact h.bank hr) (if p then s.erp - 1 else s.erp)
    exact { hs with }
  case interrupt =>
    have hs := h.transferred (scr := (s.savIrq.map (restoreIrq s.scr)).getD s.scr)
      (fun hr => by rw [bank_restoredIrq]; exact h.bank hr) (if p then s.irp - 1 else s.irp)
    exact { hs with }

/-- The timer of a running core is 0. -/
theorem State.Inv.timer_of_running {s : State} (h : s.Inv) (hr : s.run = .running) : s.waitTimer = 0 := by
  by_contra hc
  simpa [hr] using h.timerCounts.2 hc

theorem State.Inv.pause {s : State} (h : s.Inv) (hr : s.run = .running) {v : Nat}
    (hv : v < 2 ^ 20 ∨ v < 2 ^ s.cfg.waitw) : (s.pause v).Inv := by
  have hbank := h.bank (by simp [hr])
  have htimer := h.timer_of_running hr
  unfold State.pause
  split
  · exact { h with bank := fun _ => hbank, timerCounts := by simp [htimer] }
  · next hne =>
    have hlt : v < 2 ^ s.cfg.waitw := by
      rcases hv with hv | hv
      · exact hv.trans_le (Nat.pow_le_pow_right (by decide) (Config.valid_waitw h.configuration))
      · exact hv
    exact { h with bank := fun _ => hbank, timerWidth := hlt, timerCounts := by simp [hne] }

theorem ControlOutcome.inv {s t : State} {i : Instr} (ht : ControlOutcome s i t) (h : s.Inv) (hr : s.run = .running) :
    t.Inv := by
  have hbank := h.bank (by simp [hr])
  cases ht with
  | transferred a p value haux => exact { h with counter := s.icWrap_lt _ }
  | notTaken haux => exact h.advance
  | returned p => exact { h with counter := s.icWrap_lt _ }
  | left handler p hs haux => exact h.leave handler p
  | leftExceptionWith p scr hs hb haux =>
    have ht := h.transferred (fun _ => State.bank_of_badBank hbank hb) (if p then s.erp - 1 else s.erp)
    exact { ht with }
  | leftNmiWith p scr hs hb haux =>
    have ht := h.transferred (fun _ => State.bank_of_badBank hbank hb) (if p then s.nrp - 1 else s.nrp)
    exact { ht with }
  | refused n hn => exact h.skipped n
  | paused v hv hi haux => exact h.pause hr hv

/-! ## Every instruction -/

theorem exec_inv {i : Instr} {s t : State} (h : s.Inv) (hr : s.run = .running) (he : exec i s = .next t) : t.Inv := by
  rcases i.form_cases with hi | hi | hi
  · rcases exec_alu hi s with h' | ⟨mask, f, hf, h'⟩ <;> rw [h', Host.Outcome.next.injEq] at he <;> subst he
    · exact h.skipped 6
    · exact h.complete mask fun _ hu => hf.inv hu
  · rcases (runs_of_transferForm hi s).exec_cases he with ⟨n, -, rfl⟩ | h'
    exacts [h.skipped n, h'.inv h (by simp [hr])]
  · rcases (runs_of_controlForm hi s).exec_cases he with ⟨n, -, rfl⟩ | h'
    exacts [h.skipped n, h'.inv h hr]

theorem findExtra_getElem {files : List ExtraFile} {n : Nat} {aux : BitVec 4} {k : Nat} {f : ExtraFile} {b : Bool}
    (h : findExtra files n aux = some (k, f, b)) : ∃ j, k = n + j ∧ files[j]? = some f := by
  induction files generalizing n with
  | nil => simp [findExtra] at h
  | cons g rest ih =>
    rw [findExtra] at h
    split at h
    · obtain ⟨rfl, rfl, -⟩ : n = k ∧ g = f ∧ true = b := by simpa using h
      exact ⟨0, rfl, rfl⟩
    · split at h
      · obtain ⟨rfl, rfl, -⟩ : n = k ∧ g = f ∧ false = b := by simpa using h
        exact ⟨0, rfl, rfl⟩
      · obtain ⟨j, rfl, hj⟩ := ih h
        exact ⟨j + 1, by omega, hj⟩

theorem State.Inv.writeExtra {s : State} (h : s.Inv) {w k : Nat} {f : ExtraFile} (hf : s.cfg.extraFiles[k]? = some f)
    (d : RegNum) (v : BitVec w) : (s.writeExtra k f d v).Inv := by
  obtain ⟨hgpr, hdsp, hfpr, hlen, hextra⟩ := h.files
  refine { h with files := ⟨hgpr, hdsp, hfpr, List.length_set.trans hlen, fun j g hg => ?_⟩ }
  obtain ⟨-, hk⟩ := h.files.extra_length hf
  by_cases hj : j = k
  · subst hj
    obtain rfl : f = g := Option.some.inj (hf.symm.trans hg)
    have hset : (s.writeExtra j f d v).extra.getD j [] =
        Machine.writeFile (s.extra.getD j []) 0 f.count f.width.width d.toNat v := by
      simp [State.writeExtra, List.getD_eq_getElem?_getD, hk]
    rw [hset]
    exact (hextra j f hf).writeFile _ _ le_rfl _ v
  · have hset : (s.writeExtra k f d v).extra.getD j [] = s.extra.getD j [] := by
      simp [State.writeExtra, List.getD_eq_getElem?_getD, List.getElem?_set_ne (Ne.symm hj)]
    rw [hset]
    exact hextra j g hg

theorem State.Inv.extraTransfer {s t : State} (h : s.Inv) {w : Word} (ht : s.extraTransfer w = some t) : t.Inv := by
  rcases s.extraTransfer_cases w with h' | ⟨k, f, toGpr, hf, h' | h' | ⟨-, h'⟩ | ⟨-, h'⟩⟩
  · simp [h'] at ht
  all_goals
    rw [h', Option.some.injEq] at ht
    subst ht
  · exact h.skipped 5
  · exact h.skipped 6
  · exact (h.writeGpr _ _).advance
  · obtain ⟨j, hj, hfile⟩ := findExtra_getElem hf
    rw [Nat.zero_add] at hj
    subst hj
    exact (h.writeExtra hfile _ _).advance

/-! ## The parts of a step -/

theorem State.Inv.externalWrite {s : State} (h : s.Inv) (c : Host.Cell) : (s.externalWrite c).Inv :=
  { h with
    memoryForm := State.wf_externalWrite c h.memoryForm
    memoryBelow := Memory.below_memSet h.memoryBelow (Nat.mod_lt _ (Nat.two_pow_pos _)) _
    reservation := fun r hr => by
      have hr' : (match s.resv with
        | some r => if r.phys.contains (c.1 % 2 ^ s.cfg.paw) then none else some r
        | none => none) = some r := hr
      split at hr'
      · next r' hr₀ =>
        split at hr'
        · simp at hr'
        · obtain rfl : r' = r := Option.some.inj hr'
          exact h.reservation r' hr₀
      · simp at hr' }

theorem State.Inv.foldl_externalWrite {s : State} (h : s.Inv) (cs : List Host.Cell) :
    (cs.foldl State.externalWrite s).Inv := by
  induction cs generalizing s with
  | nil => exact h
  | cons c cs ih => exact ih (h.externalWrite c)

theorem State.Inv.sense {s : State} (h : s.Inv) (i : Input) : (s.sense i).Inv :=
  { h.foldl_externalWrite i.writes with }

theorem State.Inv.latch {s : State} (h : s.Inv) (i : Input) : (s.latch i).Inv := { h with }

theorem State.Inv.raiseHw {s : State} (h : s.Inv) (n : Nat) : (s.raiseHw n).Inv := { h with }

theorem State.Inv.raiseEvents {s : State} (h : s.Inv) (ns : List Nat) : (s.raiseEvents ns).Inv := by
  unfold State.raiseEvents
  generalize ns.filter (Config.raisable s.cfg) = accepted
  induction accepted generalizing s with
  | nil => exact h
  | cons n ns ih => exact ih (h.raiseHw n)

theorem State.raiseEvents_run (s : State) (ns : List Nat) : (s.raiseEvents ns).run = s.run := by
  rw [State.raiseEvents_eq_notedBetween]
  unfold State.notedBetween
  dsimp only
  split <;> rfl

theorem State.Inv.debugAfter {s : State} (h : s.Inv) (dbg : Bool) : (s.debugAfter dbg).Inv := by
  unfold State.debugAfter
  split
  exacts [h.raiseHw _, h]

theorem State.Inv.enter {s : State} (h : s.Inv) (handler : Handler) : (s.enter handler).Inv := by
  have hscr : (handlerScr s.scr).extractLsb' 4 4 = s.scr.extractLsb' 4 4 := by
    simp only [handlerScr, bank_setBit _ (show 0 < 4 by decide), bank_setBit _ (show 2 < 4 by decide),
      bank_setBit _ (show 3 < 4 by decide)]
  have hirq : (interruptScr s.scr).extractLsb' 4 4 = s.scr.extractLsb' 4 4 := by
    simp only [interruptScr, bank_setBit _ (show 0 < 4 by decide), bank_setBit _ (show 3 < 4 by decide)]
  cases handler
  case nmi =>
    have hs := h.transferred (scr := handlerScr s.scr) (fun hr => by rw [hscr]; exact h.bank hr) s.etb
    exact { hs with }
  case exception =>
    have hs := h.transferred (scr := handlerScr s.scr) (fun hr => by rw [hscr]; exact h.bank hr) s.etb
    exact { hs with }
  case interrupt =>
    have hs := h.transferred (scr := interruptScr s.scr) (fun hr => by rw [hirq]; exact h.bank hr) s.itb
    exact { hs with }

theorem State.Inv.wake {s : State} (h : s.Inv) (hr : s.run ≠ .stuck) : s.wake.Inv :=
  { h with counter := s.icWrap_lt _, bank := fun _ => h.bank hr, timerWidth := Nat.two_pow_pos _,
           timerCounts := by simp [State.wake] }

theorem State.Inv.systemReset {s : State} (h : s.Inv) : s.systemReset.Inv :=
  { inv_resetWith h.configuration with
    files := h.files, memoryForm := h.memoryForm, memoryBelow := h.memoryBelow }

/-- The registers and memory of a stuck core meet the invariant, whatever they are (R474). -/
theorem State.filesOk_undetermined (s : State) : s.undetermined.FilesOk := by
  refine ⟨freeFile_ok _ _ _ _, ?_, ?_, by simp [State.undetermined], fun k f hf => ?_⟩
  · simp only [State.undetermined]
    cases s.cfg.dsp with
    | none => rfl
    | some f => exact freeFile_ok _ _ _ _
  · simp only [State.undetermined]
    cases s.cfg.fpr with
    | none => rfl
    | some f => exact freeFile_ok _ _ _ _
  · have hf' : s.cfg.extraFiles[k]? = some f := hf
    have h : s.undetermined.extra.getD k [] = freeFile s.freeCount (3 + k) f.count f.width.width := by
      simp [State.undetermined, List.getD_eq_getElem?_getD, hf']
    rw [h]
    exact freeFile_ok _ _ _ _

theorem State.Inv.stuck {s : State} (h : s.Inv) (ht : s.waitTimer = 0) (e : Bool) :
    State.Inv { s.undetermined with run := .stuck, error := e } :=
  { h with
    files := s.filesOk_undetermined
    memoryForm := (freeMem_wf_below _ _).1
    memoryBelow := (freeMem_wf_below _ _).2
    counter := s.icWrap_lt _
    bank := fun hr => absurd rfl hr
    nmiUnmasked := by
      change (setBit (Config.freeSpecial s.freeCount 4) 0 false).getLsbD 0 = false
      rw [getLsbD_setBit, if_pos rfl, Bool.and_false]
    timerCounts := by simp [State.undetermined, ht] }

theorem State.Inv.execute {s t : State} (h : s.Inv) (hr : s.run = .running) {w : Word} (ht : s.execute w = .next t) :
    t.Inv := by
  have hexecuting : (s.executing w).Inv := { h with }
  obtain ⟨u, rfl, ⟨i, -, he⟩ | ⟨-, hx | ⟨-, rfl⟩⟩⟩ := State.execute_cases ht
  · exact (exec_inv hexecuting hr he).debugAfter _
  · exact (hexecuting.extraTransfer hx).debugAfter _
  · exact (hexecuting.skipped 2).debugAfter _

theorem State.Inv.runCycle {s t : State} (h : s.Inv) (hr : s.run = .running) (ht : s.runCycle = .next t) : t.Inv := by
  rcases State.runCycle_cases ht with ⟨-, rfl⟩ | ⟨-, -, rfl⟩ | ⟨-, -, -, rfl⟩ | rfl | ⟨w, hw⟩
  · exact h.enter .nmi
  · exact h.enter .exception
  · exact h.enter .interrupt
  · rcases s.iBusError_cases with ⟨-, he⟩ | ⟨-, he, -⟩ <;> rw [he]
    · exact { h with }
    · exact h.stuck (h.timer_of_running hr) true
  · exact h.execute hr hw

theorem State.Inv.waitCycle {s : State} (h : s.Inv) (hr : s.run ≠ .stuck) : s.waitCycle.Inv := by
  have hwake := h.wake hr
  rcases s.waitCycle_cases with ⟨-, he⟩ | ⟨-, -, -, he⟩ | ⟨-, -, he⟩ | ⟨htimed, hne, he⟩ | ⟨-, he⟩ <;> rw [he]
  · exact (hwake.enter .nmi).debugAfter _
  · exact (hwake.enter .interrupt).debugAfter _
  · exact hwake.debugAfter _
  · exact { h with timerWidth := (Nat.sub_le _ _).trans_lt h.timerWidth, timerCounts := by simpa [htimed] using hne }
  · exact h

theorem State.Inv.cycle {s t : State} (h : s.Inv) {i : Input} (ht : s.cycle i = .next t) : t.Inv := by
  have hsense := h.sense i
  rcases State.cycle_cases ht with ⟨-, rfl⟩ | ⟨-, hr, rfl⟩ | ⟨-, hr, rfl⟩ | ⟨-, hr, hrun⟩
  · exact hsense.systemReset
  · have hrun : (s.sense i).run = .stuck := (s.sense_run i).trans hr
    have htimer : (s.sense i).waitTimer = 0 := by
      by_contra hc
      exact absurd (hrun.symm.trans (hsense.timerCounts.2 hc)) (by decide)
    have hstuck := hsense.stuck htimer (s.sense i).error
    rwa [← hrun] at hstuck
  · refine (hsense.latch i).waitCycle ?_
    have hrun : ((s.sense i).latch i).run = s.run := s.sense_run i
    rw [hrun]
    rcases hr with hr | hr <;> simp [hr]
  · exact ((hsense.latch i).raiseEvents i.raise).runCycle
      ((State.raiseEvents_run _ _).trans ((s.sense_run i).trans hr)) hrun

/-- Settles O13: every part of a step keeps the invariant. -/
theorem stepKeepsInv : Obligations.StepKeepsInv := by
  intro s t h ht
  obtain ⟨-, ⟨-, -, hc⟩ | ⟨i, rest, -, hc⟩⟩ := step_cases ht
  · exact h.cycle hc
  · have hrest : State.Inv { s with inputs := rest } := { h with }
    exact hrest.cycle hc

end Sys2Proof.Machine

/-! PROOFS about integer arithmetic: ADD, SUB, MUL, DIV (41_integer_arith.md), MAD and MSU (46_fused_multiply.md). -/
namespace Sys2Proof.Machine

/-! ## Numbers and bit vectors -/

/-- A bit vector is the one of the number it denotes, unsigned or signed. -/
theorem ofInt_num {w : Nat} (u : Bool) (x : BitVec w) : BitVec.ofInt w (num u x) = x := by
  cases u
  · exact BitVec.ofInt_toInt
  · exact (BitVec.ofInt_natCast w x.toNat).trans (BitVec.ofNat_toNat w x |>.trans (BitVec.setWidth_eq x))

theorem ofInt_num_add {w : Nat} (u : Bool) (a b : BitVec w) : BitVec.ofInt w (num u a + num u b) = a + b := by
  rw [BitVec.ofInt_add, ofInt_num, ofInt_num]

theorem ofInt_num_sub {w : Nat} (u : Bool) (a b : BitVec w) : BitVec.ofInt w (num u a - num u b) = a - b := by
  rw [sub_eq_add_neg, BitVec.ofInt_add, BitVec.ofInt_neg, ofInt_num, ofInt_num, BitVec.sub_eq_add_neg]

/-- The exact value is that of its bit vector where it is in the range of the width. -/
theorem num_ofInt {w : Nat} (hw : 0 < w) {u : Bool} {x : Int} (h : inRange u w x = true) : num u (BitVec.ofInt w x) = x := by
  cases u
  case true =>
    have ⟨h0, hlt⟩ : 0 ≤ x ∧ x < 2 ^ w := by simpa [inRange] using h
    change ((BitVec.ofInt w x).toNat : Int) = x
    rw [BitVec.toNat_ofInt, Int.toNat_of_nonneg (Int.emod_nonneg _ (by positivity))]
    exact Int.emod_eq_of_lt h0 (by exact_mod_cast hlt)
  case false =>
    have ⟨hge, hlt⟩ : -2 ^ (w - 1) ≤ x ∧ x < 2 ^ (w - 1) := by simpa [inRange] using h
    exact BitVec.toInt_ofInt_eq_self hw hge hlt

theorem inRange_iff {u : Bool} {w : Nat} {x : Int} :
    inRange u w x = true ↔ if u then 0 ≤ x ∧ x < 2 ^ w else -2 ^ (w - 1) ≤ x ∧ x < 2 ^ (w - 1) := by
  cases u <;> simp [inRange]

/-! ## ADD and SUB -/

/-- An instruction whose only exception is potent is skipped (R452). -/
theorem State.complete_excBit_potent {s : State} {n : Nat} (writeBack : State → State) (hn : n < 64)
    (hp : s.potent (excBit n) = true) : s.complete (excBit n) writeBack = s.skipped n :=
  (State.complete_potent writeBack (excBit_ne_zero hn) hp).trans (State.abandoned_eq_skipped hp)

/-- The end of ADD and SUB, by cases (R232, R233, R236). -/
theorem State.addSub_cases {w : Nat} (s : State) (u : Bool) (d : RegNum) (a b : BitVec w) (exact : Int) :
    let res := BitVec.ofInt w exact
    (inRange u w exact = true → s.addSub u d a b exact = s.writtenBack d res (ruleFlags (!u) a b res)) ∧
    (inRange u w exact = false → s.potent (excBit 9) = false →
      s.addSub u d a b exact = (s.noted 9).writtenBack d (overflowValue s.cfg u res)
        { ruleFlags (!u) a b res with overflow := true }) ∧
    (inRange u w exact = false → s.potent (excBit 9) = true → s.addSub u d a b exact = s.skipped 9) := by
  refine ⟨fun h => ?_, fun h hp => ?_, fun h hp => ?_⟩ <;> simp only [State.addSub, h, ← intFlags_eq_ruleFlags]
  · exact s.complete_zero _
  · exact State.complete_impotent _ (excBit_ne_zero (by decide)) hp
  · exact State.complete_excBit_potent _ (by decide) hp

theorem exec_addSub {s : State} {sub : Bool} {m : MMode} {u : Bool} {d : RegNum} {i : Instr} {b : BitVec m.width}
    (himpl : s.cfg.implements (if sub then .sub else .add) m = true) (hd : d.toNat < s.cfg.ngpr)
    (h : s.SecondOperand m.width u (fun r => if sub then .subR m u d r else .addR m u d r)
      (fun x => if sub then .subI m u d x else .addI m u d x) i b) :
    let a := s.readGpr d m.width
    exec i s = .next (s.addSub u d a b (if sub then num u a - num u b else num u a + num u b)) := by
  cases sub
  case false =>
    refine h.exec_eq (op := s.add m u d) hd (fun _ => rfl) (fun _ => rfl) fun src hsrc hb => ?_
    rw [← hb]
    exact State.integerOp_pass _ himpl hsrc
  case true =>
    refine h.exec_eq (op := s.sub m u d) hd (fun _ => rfl) (fun _ => rfl) fun src hsrc hb => ?_
    rw [← hb]
    exact State.integerOp_pass _ himpl hsrc

theorem excBit_seven : (0x80 : BitVec 64) = excBit 7 := by decide

theorem excBit_nine : (0x200 : BitVec 64) = excBit 9 := by decide

/-- Settles O23: the exact sum or difference, in range or not. -/
theorem addSubResult : Obligations.AddSubResult := by
  intro s sub m u d i b himpl hd h a exact res fits written
  have hexec := exec_addSub himpl hd h
  have hres : BitVec.ofInt m.width exact = res := by
    cases sub
    exacts [ofInt_num_add u a b, ofInt_num_sub u a b]
  have hwritten : overflowValue s.cfg u res = written := by
    change overflowValue s.cfg u res = match s.cfg.ovfWriteback with
      | .max => if u then BitVec.allOnes m.width else BitVec.intMax m.width
      | .wrap => res
    unfold overflowValue maxValue
    cases s.cfg.ovfWriteback <;> rfl
  replace hexec : exec i s = .next (s.addSub u d a b exact) := hexec
  obtain ⟨hin, himpotent, hpotent⟩ := s.addSub_cases u d a b exact
  rw [hres] at hin himpotent
  rw [hwritten] at himpotent
  rw [excBit_nine]
  refine ⟨fun hf => hexec.trans (congrArg _ (hin (inRange_iff.2 hf))), fun hf hp => ?_, fun hf hp => ?_⟩
  · exact hexec.trans (congrArg _ (himpotent (Bool.eq_false_iff.2 fun hr => hf (inRange_iff.1 hr)) hp))
  · exact hexec.trans (congrArg _ (hpotent (Bool.eq_false_iff.2 fun hr => hf (inRange_iff.1 hr)) hp))

/-! ## Double-width results -/

/-- A double-width result is written with the flags of the comparison (R234, R350). -/
theorem State.wideResult_eq {w : Nat} (s : State) (u : Bool) (d : RegNum) (a b : BitVec w) (exact : Int) :
    s.wideResult u d a b exact =
      s.writtenBack d (BitVec.ofInt (2 * w) exact) (ruleFlags (!u) a b (BitVec.ofInt (2 * w) exact)) := by
  rw [← intFlags_eq_ruleFlags]
  rfl

/-- The numbers a `w`-bit operand can denote. -/
theorem num_bounds {w : Nat} (u : Bool) (x : BitVec w) :
    (u = true → 0 ≤ num u x ∧ num u x ≤ 2 ^ w - 1) ∧
    (u = false → -2 ^ (w - 1) ≤ num u x ∧ num u x ≤ 2 ^ (w - 1) - 1) := by
  constructor
  · rintro rfl
    have h := x.isLt
    refine ⟨Int.natCast_nonneg _, ?_⟩
    change ((x.toNat : Int)) ≤ 2 ^ w - 1
    have : ((x.toNat : Int)) < 2 ^ w := by exact_mod_cast h
    omega
  · rintro rfl
    have h₁ := BitVec.le_toInt x
    have h₂ := BitVec.toInt_lt (x := x)
    exact ⟨h₁, Int.le_sub_one_of_lt h₂⟩

/-- A product and an addend fit in double width. -/
theorem inRange_mul_add {w : Nat} (hw : 2 ≤ w) (u : Bool) (a b c : BitVec w) :
    inRange u (2 * w) (num u a * num u b + num u c) = true := by
  rw [inRange_iff]
  have ha := num_bounds u a
  have hb := num_bounds u b
  have hc := num_bounds u c
  have hpow : (2 : Int) ^ (2 * w) = 2 ^ w * 2 ^ w := by rw [two_mul, pow_add]
  cases u
  case true =>
    obtain ⟨ha0, ha1⟩ := ha.1 rfl
    obtain ⟨hb0, hb1⟩ := hb.1 rfl
    obtain ⟨hc0, hc1⟩ := hc.1 rfl
    have hmul : num true a * num true b ≤ (2 ^ w - 1) * (2 ^ w - 1) := by gcongr; omega
    refine ⟨by positivity, ?_⟩
    rw [hpow]
    nlinarith
  case false =>
    obtain ⟨ha0, ha1⟩ := ha.2 rfl
    obtain ⟨hb0, hb1⟩ := hb.2 rfl
    obtain ⟨hc0, hc1⟩ := hc.2 rfl
    have hhalf : (2 : Int) ^ (2 * w - 1) = 2 * (2 ^ (w - 1) * 2 ^ (w - 1)) := by
      rw [← pow_add, ← pow_succ']
      congr 1
      omega
    have hone : (2 : Int) ≤ 2 ^ (w - 1) := by
      calc (2 : Int) = 2 ^ 1 := rfl
        _ ≤ 2 ^ (w - 1) := pow_le_pow_right₀ (by norm_num) (by omega)
    have habs : |num false a * num false b| ≤ 2 ^ (w - 1) * 2 ^ (w - 1) := by
      rw [abs_mul]
      gcongr
      · exact abs_le.2 ⟨ha0, by omega⟩
      · exact abs_le.2 ⟨hb0, by omega⟩
    obtain ⟨hlo, hhi⟩ := abs_le.1 habs
    simp only [Bool.false_eq_true, if_false, hhalf]
    constructor <;> nlinarith

/-- The parts of a datum that needs no more registers than the file has fall on different registers. -/
theorem FileWritten.getLsbD_of_pieces_le {old new : List Reg} {base n c i w : Nat} {v : BitVec w}
    (h : FileWritten old new base n c i v) (hc : 0 < c) (hn : pieces w c ≤ n) {k : Nat} (hk : k < w) :
    (new.getD (base + (i + k / c) % n) 0).getLsbD (k % c) = v.getLsbD k := by
  have hdm := Nat.div_add_mod k c
  have hmod := Nat.mod_lt k hc
  rw [Nat.mul_comm] at hdm
  have hj : k / c < pieces w c := (Nat.div_lt_iff_lt_mul hc).2 (by
    have := Nat.div_add_mod (w + c - 1) c
    have := Nat.mod_lt (w + c - 1) hc
    rw [pieces, Nat.mul_comm]
    omega)
  rw [h.2.1 (k / c) _ (k % c) ⟨hj, rfl, by omega⟩ fun j hlt hput => ?_, hdm]
  have heq : i + j ≡ i + k / c [MOD n] := Nat.add_left_cancel hput.2.1
  have hjn : j < n := lt_of_lt_of_le hput.1 hn
  have := (heq.add_left_cancel' i).eq_of_lt_of_lt hjn (by omega)
  omega

theorem getLsbD_append_high {w k : Nat} (x : BitVec w) (y : BitVec k) {i j : Nat} (h : i = k + j) :
    (x ++ y).getLsbD i = x.getLsbD j := by
  subst h
  simp [BitVec.getLsbD_append]

theorem getLsbD_append_low {w k : Nat} (x : BitVec w) (y : BitVec k) {i : Nat} (h : i < k) :
    (x ++ y).getLsbD i = y.getLsbD i := by
  simp [BitVec.getLsbD_append, h]

/-- IMP bit 45 says whether the implementation multiplies (R40): it lies below four fields and above those of 45 bits. -/
theorem getLsbD_imp_mul (c : Config) : c.imp.getLsbD 45 = c.hasMul := by
  refine (getLsbD_append_low _ _ (by decide)).trans ?_
  refine (getLsbD_append_low _ _ (by decide)).trans ?_
  refine (getLsbD_append_low _ _ (by decide)).trans ?_
  refine (getLsbD_append_low _ _ (by decide)).trans ?_
  refine (getLsbD_append_high _ _ (j := 0) rfl).trans ?_
  simp

theorem implements_mul_eq_false {c : Config} (m : MMode) (h : c.hasMul = false) : c.implements .mul m = false := by
  simp [Config.implements, Config.has, h]

theorem isTwoOperand_mulR (m : MMode) (u : Bool) (d r : RegNum) : Instr.IsTwoOperand (.mulR m u d r) .mul m d (.reg r) := by
  cases u <;> exact ⟨⟨rfl, rfl, rfl, rfl, rfl⟩, rfl, rfl⟩

theorem isTwoOperand_mulI (m : MMode) (u : Bool) (d : RegNum) (x : BitVec 14) :
    Instr.IsTwoOperand (.mulI m u d x) .mul m d (.imm u x) := by
  cases u <;> exact ⟨⟨rfl, rfl, rfl, rfl, rfl⟩, rfl, rfl⟩

/-- An arithmetic/logic instruction the implementation does not provide notes exception 5 and leaves the GPR file. -/
theorem exec_not_provided {s : State} {i : Instr} (hi : Instr.isAlu i = true) (h : Instr.provided s.cfg i = false) :
    ∃ t, exec i s = .next t ∧ t.exc = s.exc ||| 0x20#64 ∧ t.gpr = s.gpr := by
  obtain ⟨-, hpotent, himpotent⟩ := unimplementedInstructionTraps s i h
  cases hp : s.potent 0x20
  exacts [⟨_, himpotent hi hp, rfl, rfl⟩, ⟨_, hpotent hi hp, rfl, rfl⟩]

/-- Settles O24. -/
theorem mulProduct : Obligations.MulProduct := by
  intro s m u d r x
  have hR := isTwoOperand_mulR m u d r
  have hI := isTwoOperand_mulI m u d x
  refine ⟨?code, fun himpl hd i b h => ?product, fun h => ?absent, fun himpl => ⟨fun h => ?register, fun h => ?dest⟩⟩
  case code =>
    simp only [List.forall_mem_cons, extractLsb'_encode_auxcode, getLsbD_encode_b24]
    exact ⟨⟨rfl, rfl⟩, ⟨rfl, rfl⟩, by simp⟩
  case product =>
    intro a g
    have hg := MMode.width_pos s.cfg.gprw
    have hw : 8 ≤ m.width := by cases m <;> decide
    have hrange := inRange_mul_add (by omega) u a b 0
    have hzero : num u (0 : BitVec m.width) = 0 := by cases u <;> simp [num]
    rw [hzero, Int.add_zero] at hrange
    refine ⟨BitVec.ofInt (2 * m.width) (num u a * num u b), _, num_ofInt (by omega) hrange, rfl, ?_,
      fun hn hlen k hk => ?_⟩
    · refine h.exec_eq (op := s.mul m u d) hd (fun _ => rfl) (fun _ => rfl) fun src hsrc hb => ?_
      rw [← hb, ← State.wideResult_eq]
      exact State.integerOp_pass _ himpl hsrc
    · exact (writeFile_fileWritten d.toNat _ (MMode.width_le s.cfg.gprw) (by omega) hlen).getLsbD_of_pieces_le hg hn hk
  case absent =>
    have himpl : s.cfg.implements .mul m = false :=
      h.elim id fun h => implements_mul_eq_false m ((getLsbD_imp_mul s.cfg).symm.trans h)
    intro i hi
    rcases List.mem_pair.1 hi with rfl | rfl
    exacts [exec_not_provided rfl ((hR.provided_eq s.cfg).trans himpl),
      exec_not_provided rfl ((hI.provided_eq s.cfg).trans himpl)]
  case register =>
    refine ⟨_, unimplementedRegisterTraps s _ ((hR.provided_eq s.cfg).trans himpl) ?_, rfl, rfl⟩
    rw [hR.registersExist_eq, Bool.eq_false_iff, Ne, State.gprsExist_iff]
    intro hall
    have := hall d (by simp)
    have := hall r (by simp [Src.regs])
    omega
  case dest =>
    refine ⟨_, unimplementedRegisterTraps s _ ((hI.provided_eq s.cfg).trans himpl) ?_, rfl, rfl⟩
    rw [hI.registersExist_eq, Bool.eq_false_iff, Ne, State.gprsExist_iff]
    exact fun hall => absurd (hall d (by simp)) (by omega)

/-! ## DIV -/

theorem excMask_nil : excMask [] = 0 := rfl

theorem excMask_singleton (e : Exc) : excMask [e] = excBit e.num := by
  simp [excMask]

theorem divOverflows_iff {w : Nat} (u : Bool) (a b : BitVec w) :
    divOverflows u a b = true ↔ u = false ∧ a = BitVec.intMin w ∧ b = BitVec.allOnes w := by
  simp [divOverflows, and_assoc]

/-- The truncated quotient of the numbers is the one of the words (R235). -/
theorem ofInt_tdiv_num {w : Nat} {u : Bool} {a b : BitVec w} (h : divOverflows u a b = false) :
    BitVec.ofInt w ((num u a).tdiv (num u b)) = if u then a / b else a.sdiv b := by
  cases u
  case true =>
    refine (congrArg _ ?_).trans (ofInt_num true (a / b))
    change Int.tdiv a.toNat b.toNat = ((a / b).toNat : Int)
    rw [BitVec.toNat_udiv]
    exact (Int.ofNat_tdiv _ _).symm
  case false =>
    refine (congrArg _ ?_).trans (ofInt_num false (a.sdiv b))
    refine (BitVec.toInt_sdiv_of_ne_or_ne a b ?_).symm
    by_contra hc
    push Not at hc
    refine Bool.eq_false_iff.1 h ((divOverflows_iff false a b).2 ⟨rfl, hc.1, ?_⟩)
    rw [hc.2, BitVec.neg_one_eq_allOnes]

/-- The remainder of the numbers is the one of the words (R235). -/
theorem ofInt_tmod_num {w : Nat} (u : Bool) (a b : BitVec w) :
    BitVec.ofInt w ((num u a).tmod (num u b)) = if u then a % b else a.srem b := by
  cases u
  case true =>
    refine (congrArg _ ?_).trans (ofInt_num true (a % b))
    change Int.tmod a.toNat b.toNat = ((a % b).toNat : Int)
    rw [BitVec.toNat_umod]
    exact (Int.ofNat_tmod _ _).symm
  case false =>
    exact (congrArg _ (BitVec.toInt_srem a b).symm).trans (ofInt_num false (a.srem b))

/-- Both forms of DIV on existing operands: one division (R235). -/
theorem exec_div {s : State} {m : MMode} {u : Bool} {d : RegNum} {i : Instr} {b : BitVec m.width}
    (himpl : s.cfg.implements .div m = true) (hd : d.toNat < s.cfg.ngpr)
    (h : s.SecondOperand m.width u (.divR m u d) (.divI m u d) i b) :
    let a := s.readGpr d m.width
    exec i s = .next (s.complete (excMask (divExceptions u a b)) fun t =>
      ((t.writeGpr d (quotient u a b)).writeGprAt (s.subseq d m.width) (remainder u a b)).setFlags
        { ruleFlags (!u) a b (quotient u a b) with
          divisionByZero := b == 0, overflow := b != 0 && divOverflows u a b }) := by
  refine h.exec_eq (op := s.div m u d) hd (fun _ => rfl) (fun _ => rfl) fun src hsrc hb => ?_
  rw [← hb, ← intFlags_eq_ruleFlags]
  exact State.integerOp_pass _ himpl hsrc

/-- A division that raises delivers the maximal number and no remainder (R235). -/
theorem quotient_of_raises {w : Nat} {u : Bool} {a b : BitVec w} (h : (b == 0 || divOverflows u a b) = true) :
    quotient u a b = (if u then BitVec.allOnes w else BitVec.intMax w) ∧ remainder u a b = 0 := by
  exact ⟨if_pos h, if_pos h⟩

/-- Settles O25: no exception, the divisor zero, or the quotient out of range. -/
theorem divQuotientRemainder : Obligations.DivQuotientRemainder := by
  intro s m u d i b himpl hd h a r overflows most done
  have hexec := exec_div himpl hd h
  replace hexec : exec i s = .next (s.complete (excMask (divExceptions u a b)) fun t =>
      ((t.writeGpr d (quotient u a b)).writeGprAt r (remainder u a b)).setFlags
        { ruleFlags (!u) a b (quotient u a b) with
          divisionByZero := b == 0, overflow := b != 0 && divOverflows u a b }) := hexec
  have hoverflows : divOverflows u a b = true ↔ overflows := divOverflows_iff u a b
  have hb0 (ho : overflows) : (b == 0) = false := by
    have := MMode.width_pos m
    rw [ho.2.2, beq_eq_false_iff_ne, ne_eq, BitVec.toNat_eq, BitVec.toNat_allOnes, BitVec.ofNat_eq_ofNat, BitVec.toNat_zero]
    have := Nat.one_lt_two_pow (Nat.ne_of_gt this)
    omega
  refine ⟨fun hb ho => ?normal, fun hb hp => ?zero, fun ho hp => ?overflow, fun hb hp => ?zeroPotent,
    fun ho hp => ?overflowPotent⟩
  case normal =>
    have hb' : (b == 0) = false := beq_eq_false_iff_ne.2 hb
    have ho' : divOverflows u a b = false := Bool.eq_false_iff.2 fun hc => ho (hoverflows.1 hc)
    simp only [divExceptions, hb', ho', quotient, remainder, Bool.or_false, Bool.false_eq_true, if_false, excMask_nil,
      State.complete_zero, ofInt_tdiv_num ho', ofInt_tmod_num, Bool.and_false] at hexec
    exact hexec
  case zero =>
    obtain ⟨hq, hr⟩ := quotient_of_raises (u := u) (a := a) (b := b) (by simp [hb])
    rw [hexec, hq, hr]
    simp only [divExceptions, hb, beq_self_eq_true, if_true, excMask_singleton]
    exact congrArg _ (State.complete_impotent _ (excBit_ne_zero (by decide)) hp)
  case overflow =>
    obtain ⟨hq, hr⟩ := quotient_of_raises (u := u) (a := a) (b := b) (by simp [hoverflows.2 ho])
    rw [hexec, hq, hr]
    simp only [divExceptions, hb0 ho, hoverflows.2 ho, Bool.false_eq_true, if_false, if_true, excMask_singleton]
    have hbne : (b != 0) = true := bne_iff_ne.2 (beq_eq_false_iff_ne.1 (hb0 ho))
    simp only [hbne, Bool.true_and]
    exact congrArg _ (State.complete_impotent _ (excBit_ne_zero (by decide)) hp)
  case zeroPotent =>
    simp only [divExceptions, hb, beq_self_eq_true, if_true, excMask_singleton] at hexec
    exact hexec.trans (congrArg _ (State.complete_excBit_potent _ (by decide) hp))
  case overflowPotent =>
    simp only [divExceptions, hb0 ho, hoverflows.2 ho, Bool.false_eq_true, if_false, if_true, excMask_singleton] at hexec
    exact hexec.trans (congrArg _ (State.complete_excBit_potent _ (by decide) hp))

/-! ## MAD and MSU -/

/-- A fused instruction on existing operands (R350). -/
theorem State.fusedOp_pass {s : State} {mn : Mnemonic} {m : MMode} {u : Bool} {d r : RegNum} {t : Third}
    (exact : Int → Int → Int → Int) (himpl : s.cfg.implements mn m = true)
    (hregs : s.gprsExist (d :: r :: Third.regs t) = true) :
    let a := s.readGpr d m.width
    let b := s.readGpr r m.width
    s.fusedOp mn m u d r t exact =
      s.wideResult u d a b (exact (num u a) (num u b) (num u (s.third u m.width t))) :=
  State.checkAlu_pass himpl hregs _

/-- The two forms of a three-operand instruction as one (R350). -/
theorem State.thirdOperand_cases {s : State} {w : Nat} {u : Bool} {regForm : RegNum → Instr} {immForm : BitVec 8 → Instr}
    {i : Instr} {c : BitVec w} {d r : RegNum} (hd : d.toNat < s.cfg.ngpr) (hr : r.toNat < s.cfg.ngpr)
    (h : s.ThirdOperand w u regForm immForm i c) :
    ∃ t : Third, s.third u w t = c ∧ s.gprsExist (d :: r :: Third.regs t) = true ∧
      ((∃ r2, t = .reg r2 ∧ i = regForm r2) ∨ ∃ x, t = .imm x ∧ i = immForm x) := by
  rcases h with ⟨r2, rfl, hr2, rfl⟩ | ⟨x, rfl, rfl⟩
  · exact ⟨.reg r2, rfl, by simp [State.gprsExist, Third.regs, hd, hr, hr2], .inl ⟨r2, rfl, rfl⟩⟩
  · exact ⟨.imm x, rfl, by simp [State.gprsExist, Third.regs, hd, hr], .inr ⟨x, rfl, rfl⟩⟩

theorem exec_fused {s : State} {sub : Bool} {m : MMode} {u : Bool} {d r : RegNum} {i : Instr} {c : BitVec m.width}
    (himpl : s.cfg.implements (if sub then .msu else .mad) m = true) (hd : d.toNat < s.cfg.ngpr)
    (hr : r.toNat < s.cfg.ngpr)
    (h : s.ThirdOperand m.width u (fun r2 => if sub then .msuR m u d r r2 else .madR m u d r r2)
      (fun x => if sub then .msuI m u d r x else .madI m u d r x) i c) :
    let a := s.readGpr d m.width
    let b := s.readGpr r m.width
    exec i s = .next (s.wideResult u d a b
      (if sub then num u a * num u b - num u c else num u a * num u b + num u c)) := by
  obtain ⟨t, hc, hregs, hform⟩ := State.thirdOperand_cases hd hr h
  rw [← hc]
  cases sub
  case false =>
    refine Eq.trans ?_ (congrArg _ (State.fusedOp_pass (fun a b c => a * b + c) himpl hregs))
    rcases hform with ⟨r2, rfl, rfl⟩ | ⟨x, rfl, rfl⟩ <;> rfl
  case true =>
    refine Eq.trans ?_ (congrArg _ (State.fusedOp_pass (fun a b c => a * b - c) himpl hregs))
    rcases hform with ⟨r2, rfl, rfl⟩ | ⟨x, rfl, rfl⟩ <;> rfl

/-- Settles O26. -/
theorem madMsuResult : Obligations.MadMsuResult := by
  intro s sub m u d r i c himpl hd hr h a b product exact
  have hw : 8 ≤ m.width := by cases m <;> decide
  refine ⟨BitVec.ofInt (2 * m.width) exact, ?modulo, fun hsub => ?fits, ?runs⟩
  case modulo =>
    rw [BitVec.toNat_ofInt, Int.toNat_of_nonneg (Int.emod_nonneg _ (by positivity))]
    rfl
  case fits =>
    subst hsub
    exact num_ofInt (by omega) (inRange_mul_add (by omega) u a b c)
  case runs =>
    exact (exec_fused himpl hd hr h).trans (congrArg _ (s.wideResult_eq u d a b exact))

end Sys2Proof.Machine

/-! PROOFS about shifts and rotates (42_shift_rotate.md) and bit operations (44_bit_ops.md). -/
namespace Sys2Proof.Machine

/-! ## SL and SR -/

/-- A left shift multiplies modulo the width (R251). -/
theorem shiftLeft_eq {w : Nat} (a : BitVec w) (c : Nat) : shiftLeft a c = BitVec.ofNat w (a.toNat * 2 ^ c) := by
  apply BitVec.eq_of_toNat_eq
  rw [BitVec.toNat_ofNat, shiftLeft]
  split
  · next h =>
    rw [Nat.mod_eq_zero_of_dvd (dvd_mul_of_dvd_right (pow_dvd_pow 2 h) _)]
    exact BitVec.toNat_zero
  · rw [BitVec.toNat_shiftLeft, Nat.shiftLeft_eq]

/-- A right shift by the width or more is one bit by bit all the same (R252). -/
theorem shiftRight_eq {w : Nat} (u : Bool) (a : BitVec w) (c : Nat) :
    shiftRight u a c = if u then a >>> c else a.sshiftRight c := by
  unfold shiftRight
  split
  case isFalse => rfl
  case isTrue h =>
    refine BitVec.eq_of_getLsbD_eq fun k hk => ?_
    cases u
    · simp only [Bool.not_false, Bool.true_and, Bool.false_eq_true, if_false, BitVec.getLsbD_sshiftRight,
        if_neg (show ¬c + k < w by omega)]
      cases a.msb <;> simp [hk]
    · simp only [Bool.not_true, Bool.false_and, Bool.false_eq_true, if_false, if_true, BitVec.getLsbD_ushiftRight]
      rw [BitVec.getLsbD_of_ge a _ (by omega)]
      exact BitVec.getLsbD_zero

/-- A right shift gives the floor of the quotient by a power of two (R252). -/
theorem shiftRight_eq_ofInt {w : Nat} (u : Bool) (a : BitVec w) (c : Nat) :
    shiftRight u a c = BitVec.ofInt w (num u a / 2 ^ c) := by
  rw [shiftRight_eq]
  cases u
  case true =>
    refine (ofInt_num true (a >>> c)).symm.trans (congrArg _ ?_)
    change ((a >>> c).toNat : Int) = (a.toNat : Int) / 2 ^ c
    rw [BitVec.toNat_ushiftRight, Nat.shiftRight_eq_div_pow]
    exact_mod_cast rfl
  case false =>
    refine (ofInt_num false (a.sshiftRight c)).symm.trans (congrArg _ ?_)
    change (a.sshiftRight c).toInt = a.toInt / 2 ^ c
    rw [BitVec.toInt_sshiftRight, Int.shiftRight_eq_div_pow]
    exact_mod_cast rfl

/-- Both forms of SL on existing operands (R251). -/
theorem exec_shiftLeft {s : State} {m : MMode} {u : Bool} {d : RegNum} {i : Instr} {b : BitVec m.width}
    (himpl : s.cfg.implements .sl m = true) (hd : d.toNat < s.cfg.ngpr)
    (h : s.SecondOperand m.width u (.slR m u d) (.slI m u d) i b) :
    let a := s.readGpr d m.width
    let res := BitVec.ofNat m.width (a.toNat * 2 ^ b.toNat)
    let changes := !u && res.msb != a.msb
    exec i s = .next (s.complete (if changes then excBit 9 else 0) fun t =>
      (t.writeGpr d res).setFlags { ruleFlags false a b res with overflow := changes }) := by
  refine h.exec_eq (op := s.shiftLeftOp m u d) hd (fun _ => rfl) (fun _ => rfl) fun src hsrc hb => ?_
  rw [← hb, ← intFlags_eq_ruleFlags, ← shiftLeft_eq]
  exact State.integerOp_pass _ himpl hsrc

/-- Settles O27: SL with and without a change of the MSB, and SR as a logic operation. -/
theorem shiftResult : Obligations.ShiftResult := by
  refine ⟨fun s m u d i b himpl hd h => ?left, fun s m u d i b himpl hd h => ?right⟩
  case left =>
    intro a res changes
    have hexec := exec_shiftLeft himpl hd h
    have hchanges : (!u && res.msb != a.msb) = true ↔ changes := by
      change _ ↔ u = false ∧ res.getLsbD (m.width - 1) ≠ a.getLsbD (m.width - 1)
      rw [BitVec.msb_eq_getLsbD_last, BitVec.msb_eq_getLsbD_last, Bool.and_eq_true, Bool.not_eq_true', bne_iff_ne]
    replace hexec : exec i s = .next (s.complete (if (!u && res.msb != a.msb) then excBit 9 else 0) fun t =>
      (t.writeGpr d res).setFlags { ruleFlags false a b res with overflow := (!u && res.msb != a.msb) }) := hexec
    rw [excBit_nine]
    refine ⟨fun hc => ?_, fun hc hp => ?_, fun hc hp => ?_⟩
    · rw [Bool.eq_false_iff.2 fun ht => hc (hchanges.1 ht)] at hexec
      exact hexec.trans (congrArg _ (s.complete_zero _))
    · rw [hchanges.2 hc] at hexec
      exact hexec.trans (congrArg _ (State.complete_impotent _ (excBit_ne_zero (by decide)) hp))
    · rw [hchanges.2 hc] at hexec
      exact hexec.trans (congrArg _ (State.complete_excBit_potent _ (by decide) hp))
  case right =>
    intro a res
    have hres : shiftRight u a b.toNat = res := shiftRight_eq_ofInt u a b.toNat
    rw [← hres]
    exact h.exec_logicOp hd himpl (fun _ => rfl) (fun _ => rfl)

/-! ## RL and RR -/

/-- The bit a rotate moves a bit to. -/
theorem add_mod_of_lt {w k : Nat} (c : Nat) (hk : k < w) :
    (k + c) % w = if k + c % w < w then k + c % w else k + c % w - w := by
  have hc := Nat.mod_lt c (by omega : 0 < w)
  rw [← Nat.add_mod_mod]
  split
  · next h => exact Nat.mod_eq_of_lt h
  · next h => rw [Nat.mod_eq_sub_mod (by omega), Nat.mod_eq_of_lt (by omega)]

theorem getLsbD_rotateRight {w k : Nat} (a : BitVec w) (c : Nat) (hk : k < w) :
    (rotateRight a c).getLsbD k = a.getLsbD ((k + c) % w) := by
  have hc := Nat.mod_lt c (by omega : 0 < w)
  rw [rotateRight, BitVec.getLsbD_or, BitVec.getLsbD_ushiftRight, BitVec.getLsbD_shiftLeft, add_mod_of_lt c hk,
    decide_eq_true hk, Bool.true_and, Nat.add_comm (c % w) k]
  split
  · next h => rw [decide_eq_true (by omega : k < w - c % w), Bool.not_true, Bool.false_and, Bool.or_false]
  · next h =>
    rw [BitVec.getLsbD_of_ge _ _ (by omega), decide_eq_false (by omega : ¬k < w - c % w), Bool.not_false, Bool.true_and,
      Bool.false_or, show k - (w - c % w) = k + c % w - w by omega]

theorem getLsbD_rotateLeft {w k : Nat} (a : BitVec w) (c : Nat) (hk : k < w) :
    (rotateLeft a c).getLsbD ((k + c) % w) = a.getLsbD k := by
  have hc := Nat.mod_lt c (by omega : 0 < w)
  rw [rotateLeft, BitVec.getLsbD_or, BitVec.getLsbD_ushiftRight, BitVec.getLsbD_shiftLeft,
    decide_eq_true (Nat.mod_lt (k + c) (by omega)), Bool.true_and, add_mod_of_lt c hk]
  split
  · next h =>
    rw [decide_eq_false (by omega : ¬k + c % w < c % w), Bool.not_false, Bool.true_and, Nat.add_sub_cancel,
      BitVec.getLsbD_of_ge _ (w - c % w + (k + c % w)) (by omega), Bool.or_false]
  · next h =>
    rw [decide_eq_true (by omega : k + c % w - w < c % w), Bool.not_true, Bool.false_and, Bool.false_or,
      show w - c % w + (k + c % w - w) = k by omega]

/-- Settles O28: each of the two is a logic operation. -/
theorem rotateResult : Obligations.RotateResult := by
  intro s right m d i b himpl hd h a
  cases right
  case false =>
    exact ⟨_, fun k hk => getLsbD_rotateLeft a b.toNat hk, h.exec_logicOp hd himpl (fun _ => rfl) (fun _ => rfl)⟩
  case true =>
    exact ⟨_, fun k hk => getLsbD_rotateRight a b.toNat hk, h.exec_logicOp hd himpl (fun _ => rfl) (fun _ => rfl)⟩

/-! ## Bit operations -/

/-- Both forms of a bit operation on existing operands, with a bit number that is valid or not (R290). -/
theorem State.SecondOperand.exec_bitOp {s : State} {mn : Mnemonic} {m : MMode} {u : Bool} {regForm : RegNum → Instr}
    {immForm : BitVec 14 → Instr} {i : Instr} {b : BitVec m.width} {d : RegNum}
    {f : BitVec m.width → Nat → BitVec m.width}
    (h : s.SecondOperand m.width u regForm immForm i b) (hd : d.toNat < s.cfg.ngpr)
    (himpl : s.cfg.implements mn m = true) (hreg : ∀ r, exec (regForm r) s = .next (s.bitOp mn m d (.reg r) f))
    (himm : ∀ x, exec (immForm x) s = .next (s.bitOp mn m d (.imm u x) f)) :
    let a := s.readGpr d m.width
    (b.toNat < m.width → b.toNat < s.cfg.aluw.width →
      exec i s = .next (s.writtenBack d (f a b.toNat) (ruleFlags false a b (f a b.toNat)))) ∧
    (m.width ≤ b.toNat ∨ s.cfg.aluw.width ≤ b.toNat →
      exec i s = .next (s.raise (excBit 7) fun t =>
        t.setFlags { compareFlags false a b with invalidOperation := true })) := by
  refine ⟨fun hm ha => ?valid, fun hinvalid => ?invalid⟩
  case valid =>
    refine h.exec_eq (op := fun src => s.bitOp mn m d src f) hd hreg himm fun src hsrc hb => ?_
    rw [State.bitOp, State.integerOp_pass _ himpl hsrc, hb, if_neg (by omega), intFlags_eq_ruleFlags]
    rfl
  case invalid =>
    refine h.exec_eq (op := fun src => s.bitOp mn m d src f) hd hreg himm fun src hsrc hb => ?_
    rw [State.bitOp, State.integerOp_pass _ himpl hsrc, hb, if_pos hinvalid]
    rfl

theorem getLsbD_reverseLow {w k : Nat} (a : BitVec w) (hi : Nat) (hk : k < w) :
    (reverseLow a hi).getLsbD k = if k ≤ hi then a.getLsbD (hi - k) else a.getLsbD k := by
  simp [reverseLow, hk]

theorem getLsbD_ofNat_toNat {w k : Nat} (b : Bool) (hk : k < w) :
    (BitVec.ofNat w b.toNat).getLsbD k = if k = 0 then b else false := by
  rw [BitVec.getLsbD_ofNat, decide_eq_true hk, Bool.true_and]
  cases b <;> cases k <;> simp [Nat.testBit_succ]

/-- Settles O30. -/
theorem bitOperationsResult : Obligations.BitOperationsResult := by
  intro s m d i b hd hm ha a result
  refine ⟨fun himpl h => ?sb, fun himpl h => ?rb, fun himpl h => ?tb, fun himpl h => ?rvb⟩
  case sb =>
    refine ⟨_, fun k hk => ?_, (h.exec_bitOp hd himpl (fun _ => rfl) (fun _ => rfl)).1 hm ha⟩
    rw [getLsbD_setBit, decide_eq_true hk, Bool.true_and]
  case rb =>
    refine ⟨_, fun k hk => ?_, (h.exec_bitOp hd himpl (fun _ => rfl) (fun _ => rfl)).1 hm ha⟩
    rw [getLsbD_setBit, decide_eq_true hk, Bool.true_and]
  case tb =>
    refine ⟨_, fun k hk => ?_, (h.exec_bitOp hd himpl (fun _ => rfl) (fun _ => rfl)).1 hm ha⟩
    exact getLsbD_ofNat_toNat _ hk
  case rvb =>
    refine ⟨_, fun k hk => ?_, (h.exec_bitOp hd himpl (fun _ => rfl) (fun _ => rfl)).1 hm ha⟩
    exact getLsbD_reverseLow a b.toNat hk

/-- Settles O31: the four end in the same raise. -/
theorem invalidBitNumber : Obligations.InvalidBitNumber := by
  intro s m d i b hd hinvalid h a
  have hexec : exec i s = .next (s.raise (excBit 7) fun t =>
      t.setFlags { compareFlags false a b with invalidOperation := true }) := by
    rcases h with ⟨himpl, h⟩ | ⟨himpl, h⟩ | ⟨himpl, h⟩ | ⟨himpl, h⟩
    · exact (h.exec_bitOp (f := fun a c => setBit a c true) hd himpl (fun _ => rfl) (fun _ => rfl)).2 hinvalid
    · exact (h.exec_bitOp (f := fun a c => setBit a c false) hd himpl (fun _ => rfl) (fun _ => rfl)).2 hinvalid
    · exact (h.exec_bitOp (f := fun a c => BitVec.ofNat m.width (a.getLsbD c).toNat) hd himpl (fun _ => rfl)
        (fun _ => rfl)).2 hinvalid
    · exact (h.exec_bitOp (f := fun a c => reverseLow a c) hd himpl (fun _ => rfl) (fun _ => rfl)).2 hinvalid
  rw [excBit_seven, hexec]
  refine ⟨fun hp => ?_, fun hp => ?_⟩
  · have hequal : (a == b) = decide (a.toNat = b.toNat) := by
      rw [Bool.eq_iff_iff, beq_iff_eq, decide_eq_true_iff, BitVec.toNat_eq]
    rw [State.raise_impotent _ hp, compareFlags, hequal]
    rfl
  · rw [State.raise_potent _ hp, State.abandoned_eq_skipped hp]

end Sys2Proof.Machine

/-! PROOFS about program transfer (47_program_transfer.md), returns and WAIT (48_return_wait.md). -/
namespace Sys2Proof.Machine

/-! ## Numbers in the instruction counter -/

/-- IC holds a number modulo `2^ICW` that is known modulo `2^64` (R31). -/
theorem State.icWrap_of_emod_eq {s : State} (h : s.cfg.icw ≤ 64) {x : BitVec 64} {v : Int}
    (hx : (x.toNat : Int) % 2 ^ 64 = v % 2 ^ 64) : s.icWrap x = BitVec.ofNat 64 (v % 2 ^ s.cfg.icw).toNat := by
  rw [State.icWrap_eq_ofNat]
  congr 1
  have hdvd : (2 : Int) ^ s.cfg.icw ∣ 2 ^ 64 := pow_dvd_pow 2 h
  have hmod : ((x.toNat % 2 ^ s.cfg.icw : Nat) : Int) = v % 2 ^ s.cfg.icw := by
    rw [← Int.emod_emod_of_dvd v hdvd, ← hx, Int.emod_emod_of_dvd _ hdvd]
    exact_mod_cast rfl
  omega

/-- IC + 1, as every instruction that does not transfer leaves it (R31). -/
theorem State.icWrap_add_one {s : State} (h : s.cfg.icw ≤ 64) :
    s.icWrap (s.ic + 1) = BitVec.ofNat 64 ((s.ic.toNat + 1) % 2 ^ s.cfg.icw) := by
  have hx : ((s.ic + 1).toNat : Int) % 2 ^ 64 = ((s.ic.toNat + 1 : Nat) : Int) % 2 ^ 64 := by
    rw [BitVec.toNat_add]
    simp
  rw [State.icWrap_of_emod_eq h hx]
  congr 1

/-! ## JMP and the branches -/

/-- A transfer to a signed value, or to IC plus it (R370). -/
theorem State.transfer_signExtend {s : State} (h : s.cfg.icw ≤ 64) (a p : Bool) {k : Nat} (x : BitVec k) :
    s.transfer a p (x.signExtend 64) =
      { s with
        ic := BitVec.ofNat 64 (((if a then x.toInt else (s.ic.toNat : Int) + x.toInt) % 2 ^ s.cfg.icw).toNat)
        crp := if p then BitVec.ofNat 64 ((s.ic.toNat + 1) % 2 ^ s.cfg.icw) else s.crp } := by
  have hvalue : ((x.signExtend 64).toNat : Int) = x.toInt % 2 ^ 64 := toNat_signExtend x 64
  have htarget : s.target a (x.signExtend 64) =
      BitVec.ofNat 64 (((if a then x.toInt else (s.ic.toNat : Int) + x.toInt) % 2 ^ s.cfg.icw).toNat) := by
    refine State.icWrap_of_emod_eq h ?_
    cases a
    · simp only [Bool.false_eq_true, if_false, BitVec.toNat_add]
      omega
    · simp only [if_true]
      omega
  rw [State.transfer, htarget, State.icWrap_add_one h]

/-- Settles O44: a transfer of a JMP or of a branch whose condition is met, or IC + 1. -/
theorem programTransfer : Obligations.ProgramTransfer := by
  refine ⟨fun s a p loc off hjmp hicw => ⟨?jmpO, fun hloc => ?jmpR⟩, fun s c m a p arg loc off himpl harg hicw => ?branch⟩
  case jmpO => exact (exec_jmpO_pass a p off hjmp).trans (congrArg _ (State.transfer_signExtend hicw a p off))
  case jmpR => exact (exec_jmpR_pass a p hjmp hloc).trans (congrArg _ (State.transfer_signExtend hicw a p _))
  case branch =>
    have hadvance : s.advance = { s with ic := BitVec.ofNat 64 ((s.ic.toNat + 1) % 2 ^ s.cfg.icw) } := by
      rw [State.advance, State.icWrap_add_one hicw]
    refine ⟨⟨fun ht => ?_, fun ht => ?_⟩, fun hloc => ⟨fun ht => ?_, fun ht => ?_⟩⟩
    · rw [exec_branchO_pass a p off himpl harg, State.branchTo_of_met a p _ ht, State.transfer_signExtend hicw]
    · rw [exec_branchO_pass a p off himpl harg, State.branchTo_of_not_met a p _ ht, hadvance]
    · rw [exec_branchR_pass a p himpl harg hloc, State.branchTo_of_met a p _ ht]
      exact congrArg _ (State.transfer_signExtend hicw a p _)
    · rw [exec_branchR_pass a p himpl harg hloc, State.branchTo_of_not_met a p _ ht, hadvance]

/-! ## Returns -/

/-- IC after a return (R400). -/
theorem State.returnIc_eq {s : State} (h : s.cfg.icw ≤ 64) (ptr : BitVec 64) (p : Bool) :
    s.returnIc ptr p = BitVec.ofNat 64 ((((ptr.toNat : Int) - if p then 1 else 0) % 2 ^ s.cfg.icw).toNat) := by
  refine State.icWrap_of_emod_eq h ?_
  cases p
  · simp
  · simp only [if_true, BitVec.toNat_sub]
    have : (1 : BitVec 64).toNat = 1 := rfl
    have := ptr.isLt
    omega

theorem getLsbD_restoreScr (scr : Word) (b : SavedBits) {k : Nat} (hk : k < 32) :
    (restoreScr scr b).getLsbD k =
      if k = 0 then b.b0 else if k = 2 then b.b2 else if k = 3 then b.b3 else scr.getLsbD k := by
  simp only [restoreScr, getLsbD_setBit, decide_eq_true hk, Bool.true_and]
  grind

theorem gprsExist_singleton {s : State} {r : RegNum} (h : r.toNat < s.cfg.ngpr) : s.gprsExist [r] = true :=
  (s.gprsExist_iff [r]).2 (by simpa using h)

/-- A system return that passes its checks, without argument. -/
theorem State.checkSystem_pass {s : State} (h : s.scr.getLsbD 0 = true) (body : State) : s.checkSystem body = body :=
  if_pos h

/-- The check of a new SCR passes where its bank is the current one or exists (R461). -/
theorem State.checkBank_pass {s : State} {scr : Word}
    (h : scr.extractLsb' 4 4 = s.scr.extractLsb' 4 4 ∨ (scr.extractLsb' 4 4).toNat < s.cfg.nbanks) (body : State) :
    s.checkBank scr body = body := by
  refine if_neg fun hbad => ?_
  obtain ⟨hne, hle⟩ := (s.badBank_iff scr).1 hbad
  exact h.elim hne (Nat.not_lt.2 hle)

/-- Settles O46. -/
theorem returnsComplete : Obligations.ReturnsComplete := by
  refine ⟨fun s p hicw => ?plain, fun s p loc off hsys hicw => ?system⟩
  case plain =>
    intro back
    have hback (ptr : BitVec 64) : s.returnIc ptr p = back ptr := State.returnIc_eq hicw ptr p
    refine ⟨fun hret => ?_, fun hreti hsav => ?_, fun hreti b3 hsav => ⟨restoreIrq s.scr b3, ?_, fun k hk => ?_⟩⟩
    · rw [← hback]
      exact congrArg _ (State.checkOther_pass hret rfl _)
    · rw [← hback]
      refine (congrArg _ (State.checkOther_pass hreti rfl _)).trans ?_
      simp only [State.leave, hsav, Option.map_none, Option.getD_none]
    · rw [← hback]
      refine (congrArg _ (State.checkOther_pass hreti rfl _)).trans ?_
      simp only [State.leave, hsav, Option.map_some, Option.getD_some]
    · rw [restoreIrq, getLsbD_setBit, decide_eq_true hk, Bool.true_and]
  case system =>
    intro back bankOk reg restored
    have hback (ptr : BitVec 64) : s.returnIc ptr p = back ptr := State.returnIc_eq hicw ptr p
    have hreg : BitVec.ofNat 32 (s.locationUnsigned loc) = reg := BitVec.ofNat_toNat 32 _
    refine ⟨fun hrete => ⟨fun hsav => ?_, fun b hsav => ⟨_, fun k hk => getLsbD_restoreScr s.scr b hk, ?_⟩, fun hloc hbank => ?_,
        fun hbank => ?_⟩,
      fun hretn => ⟨fun hsav => ?_, fun b hsav => ⟨_, fun k hk => getLsbD_restoreScr s.scr b hk, ?_⟩, fun hloc hbank => ?_,
        fun hbank => ?_⟩⟩ <;> rw [← hback]
    · refine (congrArg _ ((State.checkOther_pass hrete rfl _).trans (State.checkSystem_pass hsys _))).trans ?_
      simp only [State.leave, hsav, Option.map_none, Option.getD_none]
    · refine (congrArg _ ((State.checkOther_pass hrete rfl _).trans (State.checkSystem_pass hsys _))).trans ?_
      simp only [State.leave, hsav, Option.map_some, Option.getD_some]
    · rw [← hreg] at hbank ⊢
      exact congrArg _ ((State.checkOther_pass hrete (gprsExist_singleton hloc) _).trans
        ((State.checkSystem_pass hsys _).trans (State.checkBank_pass hbank _)))
    · exact congrArg _ ((State.checkOther_pass hrete rfl _).trans
        ((State.checkSystem_pass hsys _).trans (State.checkBank_pass hbank _)))
    · refine (congrArg _ ((State.checkOther_pass hretn rfl _).trans (State.checkSystem_pass hsys _))).trans ?_
      simp only [State.leave, hsav, Option.map_none, Option.getD_none]
    · refine (congrArg _ ((State.checkOther_pass hretn rfl _).trans (State.checkSystem_pass hsys _))).trans ?_
      simp only [State.leave, hsav, Option.map_some, Option.getD_some]
    · rw [← hreg] at hbank ⊢
      exact congrArg _ ((State.checkOther_pass hretn (gprsExist_singleton hloc) _).trans
        ((State.checkSystem_pass hsys _).trans (State.checkBank_pass hbank _)))
    · exact congrArg _ ((State.checkOther_pass hretn rfl _).trans
        ((State.checkSystem_pass hsys _).trans (State.checkBank_pass hbank _)))

/-! ## Traps of the returns -/

theorem State.checkSystem_traps {s : State} (h : s.scr.getLsbD 0 = false) (body : State) :
    s.checkSystem body = s.skipped 3 := by
  rcases s.checkSystem_cases body with ⟨h', -⟩ | ⟨-, he⟩
  exacts [absurd (h.symm.trans h') (by decide), he]

theorem State.checkBank_traps {s : State} {scr : Word}
    (h : scr.extractLsb' 4 4 ≠ s.scr.extractLsb' 4 4 ∧ s.cfg.nbanks ≤ (scr.extractLsb' 4 4).toNat) (body : State) :
    s.checkBank scr body = s.skipped 4 := by
  rcases s.checkBank_cases scr body with ⟨h', -⟩ | ⟨-, he⟩
  exacts [absurd (h'.symm.trans ((s.badBank_iff scr).2 h)) (by decide), he]

/-- Settles O55: the check of the mode comes first, then that of the bank. -/
theorem returnTraps : Obligations.ReturnTraps := by
  intro s p loc off hrete hretn noBank reg
  have hreg : BitVec.ofNat 32 (s.locationUnsigned loc) = reg := BitVec.ofNat_toNat 32 _
  refine ⟨fun huser => ⟨?plain, fun hloc => ?register⟩, fun hsys => ⟨fun hbank => ?offsetBank, fun hloc hbank => ?registerBank⟩⟩
  case plain =>
    simp only [List.forall_mem_cons]
    exact ⟨congrArg _ ((State.checkOther_pass hrete rfl _).trans (State.checkSystem_traps huser _)),
      congrArg _ ((State.checkOther_pass hrete rfl _).trans (State.checkSystem_traps huser _)),
      congrArg _ ((State.checkOther_pass hretn rfl _).trans (State.checkSystem_traps huser _)),
      congrArg _ ((State.checkOther_pass hretn rfl _).trans (State.checkSystem_traps huser _)), by simp⟩
  case register =>
    simp only [List.forall_mem_cons]
    have hr := gprsExist_singleton hloc
    exact ⟨congrArg _ ((State.checkOther_pass hrete hr _).trans (State.checkSystem_traps huser _)),
      congrArg _ ((State.checkOther_pass hretn hr _).trans (State.checkSystem_traps huser _)), by simp⟩
  case offsetBank =>
    simp only [List.forall_mem_cons]
    exact ⟨congrArg _ ((State.checkOther_pass hrete rfl _).trans
        ((State.checkSystem_pass hsys _).trans (State.checkBank_traps hbank _))),
      congrArg _ ((State.checkOther_pass hretn rfl _).trans
        ((State.checkSystem_pass hsys _).trans (State.checkBank_traps hbank _))), by simp⟩
  case registerBank =>
    simp only [List.forall_mem_cons]
    have hr := gprsExist_singleton hloc
    rw [← hreg] at hbank
    exact ⟨congrArg _ ((State.checkOther_pass hrete hr _).trans
        ((State.checkSystem_pass hsys _).trans (State.checkBank_traps hbank _))),
      congrArg _ ((State.checkOther_pass hretn hr _).trans
        ((State.checkSystem_pass hsys _).trans (State.checkBank_traps hbank _))), by simp⟩

/-! ## WAIT -/

/-- A waiting core spends a clock cycle (R406). -/
theorem step_waiting_quiet {s : State} (hc : s.cfg.valid = true) (hr : s.run = .waitingTimed ∨ s.run = .waitingForever)
    (hi : s.inputs = []) : step s = .next s.quiet.waitCycle := by
  rw [step_of_no_inputs hc hi (by rcases hr with hr | hr <;> simp [hr]), ← s.sense_quiet]
  rcases hr with hr | hr <;> simp [State.cycle, hr]

theorem step_waiting_input {s : State} {i : Input} {rest : List Input} (hc : s.cfg.valid = true)
    (hr : s.run = .waitingTimed ∨ s.run = .waitingForever) (hi : s.inputs = i :: rest) (hreset : i.reset = false) :
    step s = .next (s.acted i rest).waitCycle := by
  rw [step_of_input hc hi, ← s.sense_latch]
  rcases hr with hr | hr <;> simp [State.cycle, hr, hreset]

theorem State.debugAfter_false (s : State) : s.debugAfter false = s := rfl

/-- Settles O47: the pause WAIT begins, and the cycle of the waiting core on the state the environment leaves. -/
theorem waitInstruction : Obligations.WaitInstruction := by
  refine ⟨fun s loc off hwait => ?instruction, fun s hc hr hdebug => ?cycle⟩
  case instruction =>
    intro pauses
    have hpauses (i : Instr) (v : Nat) (h : exec i s = .next (s.pause v)) : pauses i v :=
      ⟨fun hv => h.trans (congrArg _ (if_pos hv)), fun hv => h.trans (congrArg _ (if_neg hv))⟩
    exact ⟨hpauses _ _ (congrArg _ (State.checkOther_pass hwait rfl _)),
      fun hloc => hpauses _ _ (congrArg _ (State.checkOther_pass hwait (gprsExist_singleton hloc) _))⟩
  case cycle =>
    intro cycle
    have hcycle (t : State) (hstep : step s = .next t.waitCycle) (hscr : t.scr = s.scr) (hrun : t.run = s.run)
        (htimer : t.waitTimer = s.waitTimer) (hcfg : t.cfg = s.cfg) (hic : t.ic = s.ic) : cycle t := by
      have hwake : t.wake = { t with run := .running, waitTimer := 0, ic := s.icWrap (s.ic + 1) } := by
        rw [State.wake, State.icWrap, State.icWrap, hic, hcfg]
      have hdbg : t.debugMode = false := (congrArg (BitVec.getLsbD · 1) hscr).trans hdebug
      have hirq : (t.irqPending && t.irqEnabled) = true ↔ t.irqPending = true ∧ s.scr.getLsbD 3 = true := by
        rw [State.irqEnabled, hscr, Bool.and_eq_true]
      rw [State.waitCycle, hdbg, htimer, hwake] at hstep
      simp only [State.debugAfter_false] at hstep
      refine ⟨fun hn => ?_, fun hn hq => ?_, fun hn hq hf => ?_, fun hn hq ht h2 => ?_, fun hn hq ht h1 => ?_⟩
      · rwa [if_pos hn] at hstep
      · rwa [if_neg (Bool.eq_false_iff.1 hn), if_pos (hirq.2 hq)] at hstep
      · rwa [if_neg (Bool.eq_false_iff.1 hn), if_neg fun h => hq (hirq.1 h),
          if_neg (by rw [hrun, hf]; decide)] at hstep
      · rwa [if_neg (Bool.eq_false_iff.1 hn), if_neg fun h => hq (hirq.1 h), if_pos (hrun.trans ht),
          if_neg (by omega)] at hstep
      · rwa [if_neg (Bool.eq_false_iff.1 hn), if_neg fun h => hq (hirq.1 h), if_pos (hrun.trans ht),
          if_pos (by omega)] at hstep
    refine ⟨fun hi => hcycle _ (step_waiting_quiet hc hr hi) rfl rfl rfl rfl rfl, fun i rest hi hreset => ?_⟩
    have hs := s.foldl_externalWrite_eq i.writes
    have hacted := (step_waiting_input hc hr hi hreset)
    refine hcycle _ hacted ?_ ?_ ?_ ?_ ?_ <;> simp only [State.acted] <;> rw [hs]

end Sys2Proof.Machine

/-! PROOFS about the outcome of each data transfer (40_data_transfer.md) and the reservation (20_memory.md). -/
namespace Sys2Proof.Machine

/-! ## The write of the index -/

/-- The write of the index changes the GPR file only (R205). -/
theorem State.indexed_eq (s : State) (m : MMode) (x : Addr) :
    s.indexed m x = { s with gpr := (s.indexed m x).gpr } ∧ (s.indexed m x).gpr.length = s.gpr.length := by
  rw [← State.applyIndex_eq_indexed]
  exact s.applyIndex_eq _

/-- The write of the index in a state that differs in memory and the reservation. -/
theorem State.applyIndex_withMemory (s : State) (m : MMode) (x : Addr) (mem : Memory) (resv : Option Reservation) :
    State.applyIndex { s with mem := mem, resv := resv } (s.indexWrite m x) =
      { s.indexed m x with mem := mem, resv := resv } := by
  rw [State.indexed]
  cases s.indexWrite m x <;> rfl

/-! ## Loads and stores -/

/-- Settles O48. -/
theorem loadCompletes : Obligations.LoadCompletes := by
  intro s locked m d x v h hv
  obtain ⟨ps, hps, -⟩ := State.memRead_cases hv
  refine ⟨ps, hps, ?_⟩
  rw [exec_load, State.load_pass h locked hv hps, State.applyIndex_eq_indexed, (s.indexed_eq m x).1]
  rfl

/-- The bytes a store leaves at its addresses and elsewhere (R106). -/
theorem memByte_stored {s : State} {m : MMode} {k : AccessKind} {a : Nat} {ps : List Nat} (v : BitVec m.width)
    (hps : s.physRange k a (m.width / 8) = some ps) :
    let mem := memSetAll s.mem ps (bytesOfValue s.cfg.endian (m.width / 8) v.toNat)
    (∀ x, x ∉ ps → memByte mem x = memByte s.mem x) ∧
    (Memory.wf s.mem = true → ps.Nodup → ps.map (memByte mem) = bytesOfValue s.cfg.endian (m.width / 8) v.toNat) :=
  ⟨fun _ hx => memByte_memSetAll_other _ hx, fun hwf hnodup => map_memByte_memSetAll hwf
    ((State.physRange_length hps).trans (bytesOfValue_length ..).symm) hnodup⟩

theorem State.memWrite_of_physRange {w : Nat} {s : State} {a : Nat} {ps : List Nat}
    (h : s.physRange .write a (w / 8) = some ps) (v : BitVec w) :
    s.memWrite a v = some { s with mem := memSetAll s.mem ps (bytesOfValue s.cfg.endian (w / 8) v.toNat) } := by
  rw [State.memWrite, h]
  rfl

/-- Settles O49. -/
theorem storeCompletes : Obligations.StoreCompletes := by
  intro s m d x ps h hps
  obtain ⟨hother, hbytes⟩ := memByte_stored (s.readGpr d m.width) hps
  refine ⟨_, ?_, hother, hbytes⟩
  rw [exec_store, State.store_pass h (State.memWrite_of_physRange hps _),
    s.applyIndex_withMemory m x _ s.resv, (s.indexed_eq m x).1]
  rfl

/-- A store-conditional that succeeds, and one that does not (R208). -/
theorem State.storeCond_pass {s : State} {m : MMode} {d : RegNum} {x : Addr} (h : s.TransferReady m d x) :
    (∀ ps, s.reserved (s.effective m x) m.bytes = true → s.physRange .write (s.effective m x) (m.width / 8) = some ps →
      s.storeCond m d x = (({ s.indexed m x with
        mem := memSetAll s.mem ps (bytesOfValue s.cfg.endian (m.width / 8) (s.readGpr d m.width).toNat)
        resv := none } : State).writeGpr d (1 : BitVec m.width)).advance) ∧
    (s.reserved (s.effective m x) m.bytes = false →
      s.storeCond m d x = (({ s.indexed m x with resv := none } : State).writeGpr d (0 : BitVec m.width)).advance) := by
  have hmem : (s.indexed m x).mem = s.mem := by rw [(s.indexed_eq m x).1]
  refine ⟨fun ps hr hps => ?_, fun hr => ?_⟩ <;> rw [State.storeCond, State.checkedTransfer h]
  · simp only [hr, if_true, State.memWrite_of_physRange hps]
    rw [← s.applyIndex_withMemory m x _ none]
  · simp only [hr, Bool.false_eq_true, if_false]
    rw [s.applyIndex_withMemory m x s.mem none, ← hmem]

/-- Settles O50. -/
theorem storeConditionalCompletes : Obligations.StoreConditionalCompletes := by
  intro s m d x h ea matching
  have hmatching : s.reserved ea m.bytes = true ↔ matching := s.reserved_iff ea m.bytes
  obtain ⟨hsucceeds, hfails⟩ := State.storeCond_pass h
  refine ⟨fun ps hm hps => ?_, fun hm => ?_⟩
  · obtain ⟨hother, hbytes⟩ := memByte_stored (s.readGpr d m.width) hps
    refine ⟨_, ?_, hother, hbytes⟩
    rw [exec_storeCond, hsucceeds ps (hmatching.2 hm) hps, (s.indexed_eq m x).1]
    rfl
  · rw [exec_storeCond, hfails (Bool.eq_false_iff.2 fun hc => hm (hmatching.1 hc)), (s.indexed_eq m x).1]
    rfl

/-! ## A load-locked and the next store-conditional -/

/-- What a store-conditional leaves in DESTINATION is read back (R25, R26). -/
theorem readGpr_indexed_writeGpr {s : State} {m : MMode} (x : Addr) (d : RegNum) (v : BitVec m.width)
    (mem : Memory) (resv : Option Reservation) (ic : BitVec 64) (hn : 0 < s.cfg.ngpr)
    (hlen : s.bankBase + s.cfg.ngpr ≤ s.gpr.length) (hp : pieces m.width s.cfg.gprw.width ≤ s.cfg.ngpr) :
    State.readGpr { ((s.indexed m x).writeGpr d v) with mem := mem, resv := resv, ic := ic } d m.width = v := by
  obtain ⟨heq, hlength⟩ := s.indexed_eq m x
  rw [heq]
  exact readFile_writeFile_same v (MMode.width_pos _) (MMode.width_le _) hn (by rw [hlength]; exact hlen) hp

/-- Settles O51: the load-locked reserves the bytes it read, and the store-conditional finds the reservation. -/
theorem loadLockedStoreConditional : Obligations.LoadLockedStoreConditional := by
  intro s t m d d' x x' htr hdf hs ht hload hea
  have hup : s.BusUp .read := hdf
  obtain ⟨ps, hps, hexec⟩ := loadCompletes s true m d x _ hs (s.memRead_of_busUp htr hup _ _)
  rw [hexec, Host.Outcome.next.injEq, (s.indexed_eq m x).1] at hload
  have hresv : t.resv = some ⟨s.effective m x, m.width / 8, ps⟩ := by rw [← hload]; rfl
  have hcfg : t.cfg = s.cfg := by rw [← hload]; rfl
  have hbank : t.bankBase = s.bankBase := by rw [← hload]; rfl
  have hlen : t.gpr.length = s.gpr.length := by
    rw [← hload]
    exact (writeFile_length ..).trans (s.indexed_eq m x).2
  have hupt : t.BusUp .write := by rw [← hload]; exact hdf
  have hpst := t.physRange_of_busUp (by rw [hcfg]; exact htr) hupt (t.effective m x') (m.width / 8)
  obtain ⟨hsucceeds, hfails⟩ := storeConditionalCompletes t m d' x' ht
  refine ⟨⟨_, hresv, rfl, rfl, fun c => ?external⟩, fun hmay => ?succeeds, fun hmay => ?fails⟩
  case external =>
    have hmem : ps.contains (c.1 % 2 ^ t.cfg.paw) = true ↔
        ∃ k, k < m.width / 8 ∧ c.1 % 2 ^ s.cfg.paw = (s.effective m x + k) % 2 ^ s.cfg.paw := by
      rw [s.physRange_of_busUp htr hup] at hps
      rw [← Option.some.inj hps, hcfg, List.contains_iff_mem, List.mem_map]
      simp only [List.mem_range, eq_comm]
    simp only [State.externalWrite, hresv]
    by_cases hc : ps.contains (c.1 % 2 ^ t.cfg.paw) = true
    · rw [if_pos hc, if_pos (hmem.1 hc)]
    · rw [if_neg hc, if_neg fun h => hc (hmem.2 h)]
  case succeeds =>
    obtain ⟨mem, hexec', -⟩ := hsucceeds _ ⟨hmay, _, hresv, hea.symm, rfl⟩ hpst
    refine ⟨_, hexec', rfl, fun hn hle hp => ?_⟩
    exact readGpr_indexed_writeGpr x' d' 1 _ _ _ (by rwa [hcfg]) (by rwa [hbank, hcfg, hlen]) (by rwa [hcfg])
  case fails =>
    refine ⟨_, hfails fun hm => absurd (hmay.symm.trans hm.1) (by decide), rfl, ?_, fun hn hle hp => ?_⟩
    · rw [(t.indexed_eq m x').1]
      rfl
    · exact readGpr_indexed_writeGpr x' d' 0 _ _ _ (by rwa [hcfg]) (by rwa [hbank, hcfg, hlen]) (by rwa [hcfg])

/-! ## A failing access -/

/-- The state after a failing access, by whether the exception is potent (R475). -/
theorem State.dBusError_eq {s : State} :
    s.dBusError =
      let failed := { s with exc := s.exc ||| 0x200000#64, exi := s.ir, ic := s.icWrap (s.ic + 1) }
      if s.scr.getLsbD 2 = true ∧ s.exm.getLsbD 21 = false then { failed with abandoned := true }
      else { failed with error := true } := by
  have hp : s.potent (excBit 21) = true ↔ s.scr.getLsbD 2 = true ∧ s.exm.getLsbD 21 = false := by
    rw [s.potent_excBit (by decide), Bool.and_eq_true, Bool.not_eq_true']
  simp only [State.dBusError, Exc.num, hp]
  rfl

/-- Settles O52: the three kinds of access fail alike. -/
theorem dataBusError : Obligations.DataBusError := by
  intro s m d x h _ ea failed after
  have hafter : s.dBusError = after := State.dBusError_eq
  refine ⟨fun locked hps => ?load, fun hps => ?store, fun r hps hr haddr hbytes hmay => ?storeCond⟩
  case load =>
    have hread : s.memRead .read (s.effective m x) m.width = none := by
      rw [State.memRead]
      exact congrArg (Option.map _) hps
    rw [exec_load, State.load, State.checkedTransfer h, ← hafter]
    simp only [hread]
  case store =>
    have hwrite : s.memWrite (s.effective m x) (s.readGpr d m.width) = none := by
      rw [State.memWrite]
      exact congrArg (Option.map _) hps
    rw [exec_store, State.store, State.checkedTransfer h, ← hafter]
    simp only [hwrite]
  case storeCond =>
    have hwrite : s.memWrite (s.effective m x) (s.readGpr d m.width) = none := by
      rw [State.memWrite]
      exact congrArg (Option.map _) hps
    have hreserved : s.reserved (s.effective m x) m.bytes = true := (s.reserved_iff _ _).2 ⟨hmay, r, hr, haddr, hbytes⟩
    rw [exec_storeCond, State.storeCond, State.checkedTransfer h, ← hafter]
    simp only [hreserved, if_true, hwrite]

/-! ## Transfers between registers -/

theorem transferOk_of_le {s : State} {m : MMode} (h : m.width ≤ s.cfg.maxXfer.width) : s.transferOk m = true :=
  decide_eq_true h

/-- Settles O53. -/
theorem registerTransfersComplete : Obligations.RegisterTransfersComplete := by
  intro s m u d r imm hm
  have hok := transferOk_of_le hm
  refine ⟨fun hd => ⟨fun hr => ?_, fun hr => ?_, fun f hf hr => ?_, fun f hf hr => ?_, ?_⟩,
    fun hr => ⟨fun f hf hd => ?_, fun f hf hd => ?_⟩⟩
  · exact congrArg _ (State.checkOther_pass hok ((s.gprsExist_iff _).2 (by simp [hd, hr])) _)
  · exact congrArg _ (State.checkOther_pass hok (Bool.and_eq_true_iff.2 ⟨gprsExist_singleton hd, decide_eq_true hr⟩) _)
  · refine (congrArg _ ?_ : Host.Outcome.next (s.movRegDsp m d r) = _)
    simp only [State.movRegDsp, hf]
    exact State.checkOther_pass hok (Bool.and_eq_true_iff.2 ⟨gprsExist_singleton hd, decide_eq_true hr⟩) _
  · refine (congrArg _ ?_ : Host.Outcome.next (s.movRegFpr m d r) = _)
    simp only [State.movRegFpr, hf]
    exact State.checkOther_pass hok (Bool.and_eq_true_iff.2 ⟨gprsExist_singleton hd, decide_eq_true hr⟩) _
  · exact congrArg _ (State.checkOther_pass hok (gprsExist_singleton hd) _)
  · refine (congrArg _ ?_ : Host.Outcome.next (s.movDspReg m d r) = _)
    simp only [State.movDspReg, hf]
    exact State.checkOther_pass hok (Bool.and_eq_true_iff.2 ⟨decide_eq_true hd, gprsExist_singleton hr⟩) _
  · refine (congrArg _ ?_ : Host.Outcome.next (s.movFprReg m d r) = _)
    simp only [State.movFprReg, hf]
    exact State.checkOther_pass hok (Bool.and_eq_true_iff.2 ⟨decide_eq_true hd, gprsExist_singleton hr⟩) _

/-! ## MOV to a special register -/

theorem mem_spcTouched_iff {d : RegNum} {w k : Nat} :
    k ∈ spcTouched d w ↔ ∃ j, j < max 1 (w / 32) ∧ k = (d.toNat + j) % 27 := by
  simp only [spcTouched, List.mem_map, List.mem_range, eq_comm]
  rfl

/-- Settles O54: the checks in their order, then the write. -/
theorem specialRegisterTransferOutcome : Obligations.SpecialRegisterTransferOutcome := by
  intro s m d r hm hd hr touched system new userTrap readOnly noBank
  have htouched (k : Nat) : k ∈ spcTouched d m.width ↔ touched k := mem_spcTouched_iff
  have huser : (!s.systemMode && (spcTouched d m.width).any fun k => !userWritable k) = true ↔ userTrap := by
    simp only [Bool.and_eq_true, Bool.not_eq_true', List.any_eq_true, htouched, userWritable, decide_eq_false_iff_not]
    refine and_congr (Bool.not_eq_true _).symm.to_iff (exists_congr fun k => ?_)
    rw [and_comm]
    refine and_congr_left fun ⟨j, _, hk⟩ => ?_
    omega
  have hread : (s.systemMode && (spcTouched d m.width).any fun k => k == 0 || k == 1) = true ↔ readOnly := by
    simp only [Bool.and_eq_true, List.any_eq_true, htouched, Bool.or_eq_true, beq_iff_eq]
    refine and_congr Iff.rfl ⟨?_, ?_⟩
    · rintro ⟨k, hk, rfl | rfl⟩
      exacts [.inl hk, .inr hk]
    · rintro (h | h)
      exacts [⟨0, h, .inl rfl⟩, ⟨1, h, .inr rfl⟩]
  have hbank : ((spcTouched d m.width).contains 15 && s.badBank new.scr) = true ↔ noBank := by
    rw [Bool.and_eq_true, List.contains_iff_mem, htouched, State.badBank_iff]
  have hpid : ((spcTouched d m.width).any fun k => k == 13 || k == 14) = true ↔ touched 13 ∨ touched 14 := by
    simp only [List.any_eq_true, htouched, Bool.or_eq_true, beq_iff_eq]
    refine ⟨?_, ?_⟩
    · rintro ⟨k, hk, rfl | rfl⟩
      exacts [.inl hk, .inr hk]
    · rintro (h | h)
      exacts [⟨13, h, .inl rfl⟩, ⟨14, h, .inr rfl⟩]
  have hexec : exec (.movSpcReg m d r) s = .next (
      if (!s.systemMode && (spcTouched d m.width).any fun k => !userWritable k) = true then s.skipped 3
      else if (s.systemMode && (spcTouched d m.width).any fun k => k == 0 || k == 1) = true then s.skipped 7
      else if ((spcTouched d m.width).contains 15 && s.badBank new.scr) = true then s.skipped 4
      else if ((spcTouched d m.width).any fun k => k == 13 || k == 14) = true then { new with ic := 0 }
      else new.advance) := by
    refine (congrArg _ (State.checkOther_pass (transferOk_of_le hm)
      (Bool.and_eq_true_iff.2 ⟨decide_eq_true hd, gprsExist_singleton hr⟩) _)).trans ?_
    simp only [State.raiseSkip_eq_skipped]
    rfl
  simp only [huser, hread, hbank, hpid] at hexec
  refine ⟨fun h => ?_, fun h => ?_, fun h₁ h₂ h₃ => ?_, fun h₁ h₂ h₃ h₄ => ?_, fun h₁ h₂ h₃ h₄ => ?_⟩
  · rwa [if_pos h] at hexec
  · rwa [if_neg fun hu : userTrap => hu.1 h.1, if_pos h] at hexec
  · rwa [if_neg h₁, if_neg h₂, if_pos h₃] at hexec
  · rwa [if_neg h₁, if_neg h₂, if_neg h₃, if_pos h₄] at hexec
  · rw [if_neg h₁, if_neg h₂, if_neg h₃, if_neg h₄] at hexec
    exact hexec

end Sys2Proof.Machine

/-! PROOFS about floating-point values: the fields of a pattern, the number a value stands for, the comparison
(45_floating_point.md R312, R315). -/
namespace Sys2Proof.Machine

/-! ## The fields of a pattern -/

/-- A pattern with its sign keeps the fields of its magnitude. -/
theorem signed_fields {f : FpFmt} {mag : Nat} (sign : Bool) (h : mag < 2 ^ (f.expBits + f.fracBits)) :
    FpFmt.signBit f (FpFmt.signed f sign mag) = sign ∧
    FpFmt.signed f sign mag / 2 ^ f.fracBits % 2 ^ f.expBits = mag / 2 ^ f.fracBits ∧
    FpFmt.signed f sign mag % 2 ^ f.fracBits = mag % 2 ^ f.fracBits := by
  have hfrac : 0 < 2 ^ f.fracBits := Nat.two_pow_pos _
  have hexp : mag / 2 ^ f.fracBits < 2 ^ f.expBits := Nat.div_lt_of_lt_mul (by rwa [← pow_add, Nat.add_comm])
  cases sign
  · simp only [FpFmt.signed, FpFmt.signBit, Bool.false_eq_true, if_false, Nat.zero_add]
    exact ⟨Nat.testBit_lt_two_pow h, Nat.mod_eq_of_lt hexp, trivial⟩
  · have hsplit : 2 ^ (f.expBits + f.fracBits) = 2 ^ f.fracBits * 2 ^ f.expBits := by rw [pow_add, Nat.mul_comm]
    simp only [FpFmt.signed, FpFmt.signBit, if_true]
    refine ⟨?_, ?_, ?_⟩
    · rw [Nat.testBit_two_pow_add_eq, Nat.testBit_lt_two_pow h]
      rfl
    · rw [hsplit, Nat.mul_add_div hfrac, Nat.add_mod_left, Nat.mod_eq_of_lt hexp]
    · rw [hsplit, Nat.mul_add_mod]

/-- The value of a pattern given by its sign and its magnitude (R312). -/
theorem unpack_signed {f : FpFmt} {mag : Nat} (sign : Bool) (h : mag < 2 ^ (f.expBits + f.fracBits)) :
    FpFmt.unpack f (FpFmt.signed f sign mag) =
      let e := mag / 2 ^ f.fracBits
      let frac := mag % 2 ^ f.fracBits
      if e = 2 ^ f.expBits - 1 then
        if frac = 0 then .inf sign else .nan sign (frac.testBit (f.fracBits - 1)) frac
      else if e = 0 then .fin sign frac (FpFmt.minQuantum f)
      else .fin sign (2 ^ f.fracBits + frac) ((e : Int) - 1 + FpFmt.minQuantum f) := by
  obtain ⟨hsign, hexp, hfrac⟩ := signed_fields sign h
  simp only [FpFmt.unpack, hsign, hexp, hfrac]

theorem infBits_add_lt {f : FpFmt} {frac : Nat} (h : frac < 2 ^ f.fracBits) :
    FpFmt.infBits f + frac < 2 ^ (f.expBits + f.fracBits) := by
  have : 1 ≤ 2 ^ f.expBits := Nat.one_le_two_pow
  calc FpFmt.infBits f + frac < (2 ^ f.expBits - 1) * 2 ^ f.fracBits + 1 * 2 ^ f.fracBits := by
        rw [FpFmt.infBits]
        omega
    _ = 2 ^ (f.expBits + f.fracBits) := by rw [← Nat.add_mul, Nat.sub_add_cancel this, pow_add]

theorem infBits_add_fields {f : FpFmt} {frac : Nat} (h : frac < 2 ^ f.fracBits) :
    (FpFmt.infBits f + frac) / 2 ^ f.fracBits = 2 ^ f.expBits - 1 ∧ (FpFmt.infBits f + frac) % 2 ^ f.fracBits = frac := by
  rw [FpFmt.infBits, Nat.mul_comm]
  exact ⟨by rw [Nat.mul_add_div (Nat.two_pow_pos _), Nat.div_eq_of_lt h, Nat.add_zero],
    by rw [Nat.mul_add_mod, Nat.mod_eq_of_lt h]⟩

/-- The pattern of an infinity. -/
theorem unpack_signed_infBits (f : FpFmt) (sign : Bool) :
    FpFmt.unpack f (FpFmt.signed f sign (FpFmt.infBits f)) = .inf sign := by
  have h0 : 0 < 2 ^ f.fracBits := Nat.two_pow_pos _
  obtain ⟨hexp, hfrac⟩ := infBits_add_fields h0
  have hu := unpack_signed sign (infBits_add_lt (f := f) h0)
  rw [hexp, hfrac] at hu
  exact hu.trans (by simp)

/-- The pattern of a NaN with a given fraction. -/
theorem unpack_signed_nan {f : FpFmt} {frac : Nat} (sign : Bool) (h0 : frac ≠ 0) (h : frac < 2 ^ f.fracBits) :
    FpFmt.unpack f (FpFmt.signed f sign (FpFmt.infBits f + frac)) = .nan sign (frac.testBit (f.fracBits - 1)) frac := by
  obtain ⟨hexp, hfrac⟩ := infBits_add_fields h
  rw [unpack_signed sign (infBits_add_lt h)]
  simp only [hexp, hfrac, if_true, if_neg h0]

/-- The quiet NaN the hardware writes is one. -/
theorem unpack_quietNan {f : FpFmt} (h : 1 ≤ f.fracBits) :
    FpFmt.unpack f (FpFmt.quietNan f) = .nan false true (2 ^ (f.fracBits - 1)) := by
  have hlt : 2 ^ (f.fracBits - 1) < 2 ^ f.fracBits := Nat.pow_lt_pow_right (by decide) (by omega)
  have hq := unpack_signed_nan false (Nat.two_pow_pos _).ne' hlt
  rw [Nat.testBit_two_pow_self] at hq
  rw [← hq, FpFmt.signed, FpFmt.quietNan]
  simp

/-! ## The number of a finite pattern -/

theorem lt_pow_of_lt_infBits {f : FpFmt} {bits : Nat} (h : bits < FpFmt.infBits f) :
    bits < 2 ^ (f.expBits + f.fracBits) := by
  have := infBits_add_lt (f := f) (Nat.two_pow_pos _)
  omega

theorem div_lt_of_lt_infBits {f : FpFmt} {bits : Nat} (h : bits < FpFmt.infBits f) :
    bits / 2 ^ f.fracBits < 2 ^ f.expBits - 1 := by
  rw [FpFmt.infBits] at h
  exact Nat.div_lt_of_lt_mul (by rwa [Nat.mul_comm])

/-- A pattern below infinity is finite and stands for its magnitude with its sign (R312). -/
theorem unpack_signed_of_lt {f : FpFmt} {bits : Nat} (sign : Bool) (h : bits < FpFmt.infBits f) :
    FpVal.isFinite (FpFmt.unpack f (FpFmt.signed f sign bits)) = true ∧
    FpVal.rat (FpFmt.unpack f (FpFmt.signed f sign bits)) = (if sign then -1 else 1) * FpFmt.magnitude f bits := by
  rw [unpack_signed sign (lt_pow_of_lt_infBits h)]
  simp only [if_neg (div_lt_of_lt_infBits h).ne, FpFmt.magnitude]
  split
  · exact ⟨rfl, by rw [FpVal.rat, mul_assoc]⟩
  · exact ⟨rfl, by rw [FpVal.rat, mul_assoc]⟩

/-- The pattern, without its sign, of `m * 2^e` (R312). -/
def FpFmt.pattern (f : FpFmt) (m : Nat) (e : Int) : Nat := (e - FpFmt.minQuantum f).toNat * 2 ^ f.fracBits + m

/-- `m` is a mantissa of the format, or the next power of two, with `e` the exponent of its last place: `m` is below
`2^fracBits` only at the quantum of the denormalized numbers (R312). -/
structure FpFmt.Holds (f : FpFmt) (m : Nat) (e : Int) : Prop where
  quantum : FpFmt.minQuantum f ≤ e
  mant : m ≤ 2 ^ (f.fracBits + 1)
  normal : e = FpFmt.minQuantum f ∨ 2 ^ f.fracBits ≤ m

/-- The pattern of a mantissa stands for it. -/
theorem FpFmt.Holds.magnitude_pattern {f : FpFmt} {m : Nat} {e : Int} (h : FpFmt.Holds f m e) :
    FpFmt.magnitude f (FpFmt.pattern f m e) = (m : Rat) * 2 ^ e := by
  obtain ⟨hquantum, hmant, hnormal⟩ := h
  obtain ⟨k, hk⟩ : ∃ k : Nat, e - FpFmt.minQuantum f = k := Int.eq_ofNat_of_zero_le (by omega)
  have hpos : 0 < 2 ^ f.fracBits := Nat.two_pow_pos _
  rw [pow_succ] at hmant
  rw [FpFmt.pattern, hk, Int.toNat_natCast]
  by_cases hlow : m < 2 ^ f.fracBits
  case pos =>
    have hzero : k = 0 := by omega
    subst hzero
    rw [Nat.zero_mul, Nat.zero_add, FpFmt.magnitude]
    simp only [Nat.div_eq_of_lt hlow, Nat.mod_eq_of_lt hlow, if_true]
    rw [show FpFmt.minQuantum f = e by omega]
  case neg =>
    obtain ⟨r, rfl⟩ : ∃ r, m = 2 ^ f.fracBits + r := ⟨m - 2 ^ f.fracBits, by omega⟩
    have hsum : k * 2 ^ f.fracBits + (2 ^ f.fracBits + r) = 2 ^ f.fracBits * (k + 1) + r := by ring
    rw [hsum]
    rcases Nat.lt_or_ge r (2 ^ f.fracBits) with hr | hr
    case inl =>
      have hdiv : (2 ^ f.fracBits * (k + 1) + r) / 2 ^ f.fracBits = k + 1 := by
        rw [Nat.mul_add_div hpos, Nat.div_eq_of_lt hr, Nat.add_zero]
      have hmod : (2 ^ f.fracBits * (k + 1) + r) % 2 ^ f.fracBits = r := by rw [Nat.mul_add_mod, Nat.mod_eq_of_lt hr]
      simp only [FpFmt.magnitude, hdiv, hmod, if_neg (Nat.succ_ne_zero k)]
      rw [show ((k + 1 : Nat) : Int) - 1 + FpFmt.minQuantum f = e by push_cast; omega]
    case inr =>
      obtain rfl : r = 2 ^ f.fracBits := by omega
      have hdiv : (2 ^ f.fracBits * (k + 1) + 2 ^ f.fracBits) / 2 ^ f.fracBits = k + 2 := by
        rw [Nat.mul_add_div hpos, Nat.div_self hpos]
      have hmod : (2 ^ f.fracBits * (k + 1) + 2 ^ f.fracBits) % 2 ^ f.fracBits = 0 := by rw [Nat.mul_add_mod, Nat.mod_self]
      simp only [FpFmt.magnitude, hdiv, hmod, if_neg (Nat.succ_ne_zero (k + 1))]
      rw [show ((k + 2 : Nat) : Int) - 1 + FpFmt.minQuantum f = e + 1 by push_cast; omega, zpow_add₀ (by norm_num)]
      push_cast
      ring

/-- What a finite value unpacked from a format is: the sign bit, and a mantissa of the format whose pattern is the one
unpacked (R312). -/
theorem unpack_fin {f : FpFmt} {bits m : Nat} {sign : Bool} {e : Int} (h : FpFmt.unpack f bits = .fin sign m e) :
    sign = FpFmt.signBit f bits ∧ m < 2 ^ (f.fracBits + 1) ∧ FpFmt.Holds f m e ∧ FpFmt.pattern f m e < FpFmt.infBits f ∧
      1 ≤ f.expBits := by
  have hpos : 0 < 2 ^ f.fracBits := Nat.two_pow_pos _
  have hmod : bits / 2 ^ f.fracBits % 2 ^ f.expBits < 2 ^ f.expBits := Nat.mod_lt _ (Nat.two_pow_pos _)
  have hfrac : bits % 2 ^ f.fracBits < 2 ^ f.fracBits := Nat.mod_lt _ hpos
  have hdouble : 2 ^ (f.fracBits + 1) = 2 ^ f.fracBits + 2 ^ f.fracBits := by rw [pow_succ, Nat.mul_two]
  rw [FpFmt.unpack] at h
  generalize bits / 2 ^ f.fracBits % 2 ^ f.expBits = E at h hmod
  generalize bits % 2 ^ f.fracBits = r at h hfrac
  have hbelow (hE : E ≠ 2 ^ f.expBits - 1) : E * 2 ^ f.fracBits + r < FpFmt.infBits f := by
    have hle : (E + 1) * 2 ^ f.fracBits ≤ (2 ^ f.expBits - 1) * 2 ^ f.fracBits := Nat.mul_le_mul_right _ (by omega)
    rw [Nat.add_mul] at hle
    rw [FpFmt.infBits]
    omega
  have hexp (hE : E ≠ 2 ^ f.expBits - 1) : 1 ≤ f.expBits := by
    by_contra hc
    have h0 : f.expBits = 0 := by omega
    rw [h0] at hE hmod
    omega
  split at h
  · split at h <;> cases h
  · next hE =>
    split at h
    · next hzero =>
      cases h
      refine ⟨rfl, by omega, ⟨le_refl _, by omega, .inl rfl⟩, ?_, hexp hE⟩
      have := hbelow hE
      simpa [FpFmt.pattern, hzero] using this
    · next hzero =>
      cases h
      refine ⟨rfl, by omega, ⟨by omega, by omega, .inr (by omega)⟩, ?_, hexp hE⟩
      have hk : ((E : Int) - 1 + FpFmt.minQuantum f - FpFmt.minQuantum f).toNat = E - 1 := by omega
      have hmul : (E - 1) * 2 ^ f.fracBits + 2 ^ f.fracBits = E * 2 ^ f.fracBits := by
        rw [← Nat.succ_mul, Nat.succ_eq_add_one, Nat.sub_add_cancel (by omega)]
      have := hbelow hE
      rw [FpFmt.pattern, hk]
      omega

/-! ## Rational numbers -/

/-- The integer `scaled` stands for the value in units of `2^q`. -/
theorem scaled_mul_zpow (sign : Bool) (m : Nat) {e q : Int} (h : q ≤ e) :
    (scaled sign m e q : Rat) * 2 ^ q = FpVal.rat (.fin sign m e) := by
  have hpow : (2 : Rat) ^ (e - q).toNat * 2 ^ q = 2 ^ e := by
    rw [← zpow_natCast, ← zpow_add₀ (by norm_num), Int.toNat_of_nonneg (by omega), Int.sub_add_cancel]
  cases sign
  · simp only [scaled, FpVal.rat, Bool.false_eq_true, if_false]
    push_cast
    rw [mul_assoc, hpow, one_mul]
  · simp only [scaled, FpVal.rat, if_true]
    push_cast
    rw [neg_mul, mul_assoc, hpow]
    ring

/-- The comparison of finite values is that of their numbers (R315). -/
theorem compare_of_finite {x y : FpVal} (hx : FpVal.isFinite x = true) (hy : FpVal.isFinite y = true) :
    (FpVal.compare x y = some .lt ↔ FpVal.rat x < FpVal.rat y) ∧
    (FpVal.compare x y = some .eq ↔ FpVal.rat x = FpVal.rat y) ∧
    (FpVal.compare x y = some .gt ↔ FpVal.rat y < FpVal.rat x) := by
  obtain ⟨s, m, e, rfl⟩ : ∃ s m e, x = .fin s m e := by
    cases x with
    | fin s m e => exact ⟨s, m, e, rfl⟩
    | _ => cases hx
  obtain ⟨t, n, g, rfl⟩ : ∃ s m e, y = .fin s m e := by
    cases y with
    | fin s m e => exact ⟨s, m, e, rfl⟩
    | _ => cases hy
  have hpos : (0 : Rat) < 2 ^ (min e g) := by positivity
  rw [← scaled_mul_zpow s m (min_le_left e g), ← scaled_mul_zpow t n (min_le_right e g),
    mul_lt_mul_iff_left₀ hpos, mul_lt_mul_iff_left₀ hpos, mul_left_inj' hpos.ne', Int.cast_lt, Int.cast_lt, Int.cast_inj]
  simp only [FpVal.compare, Option.some.injEq]
  generalize scaled s m e (min e g) = a
  generalize scaled t n g (min e g) = b
  refine ⟨compareOfLessAndEq_eq_lt, compareOfLessAndEq_eq_eq le_refl not_le, ?_⟩
  exact compareOfLessAndEq_eq_gt le_antisymm le_total not_le a b

end Sys2Proof.Machine

/-! PROOFS about the outcome of the floating-point instructions: the exceptions noted, the result, the flags
(45_floating_point.md R314, R315). -/
namespace Sys2Proof.Machine

/-! ## The end of a floating-point instruction -/

theorem excMask_cons (e : Exc) (es : List Exc) : excMask (e :: es) = excBit e.num ||| excMask es := rfl

theorem Exc.num_lt (e : Exc) : e.num < 64 := by cases e <;> decide

/-- A mask is empty where its list is. -/
theorem excMask_eq_zero_iff {es : List Exc} : excMask es = 0 ↔ es = [] := by
  cases es with
  | nil => simp [excMask_nil]
  | cons e es =>
    simp only [excMask_cons, reduceCtorEq, iff_false, BitVec.ofNat_eq_ofNat, BitVec.or_eq_zero_iff, not_and_or]
    exact .inl (excBit_ne_zero (Exc.num_lt e))

/-- The end of an FP instruction: abandoned where an exception it raises is potent, else its write-back on the state with
the exceptions noted (R314). -/
theorem State.complete_excMask (s : State) (es : List Exc) (writeBack : State → State) :
    s.complete (excMask es) writeBack = s.fpOutcome es (writeBack (s.notedAll es)).advance := by
  by_cases hes : es = []
  case pos =>
    subst hes
    have hp : s.potent (excMask []) = false := by simp [State.potent, excMask_nil]
    rw [State.fpOutcome, if_neg (by simp [hp]), State.notedAll, if_pos rfl]
    exact s.complete_zero writeBack
  case neg =>
    have hm : excMask es ≠ 0 := fun h => hes (excMask_eq_zero_iff.1 h)
    rw [State.notedAll, if_neg hes, State.fpOutcome]
    cases hp : s.potent (excMask es)
    · exact State.complete_impotent _ hm hp
    · exact State.complete_potent _ hm hp

/-- The exceptions of R314 as the statements spell them. -/
theorem State.fpExceptions_eq_fpRaised (s : State) (listed : List Exc) (denormal : Bool) (c : FpCalc) :
    s.fpExceptions listed denormal c = s.fpRaised listed denormal c := by
  have hover : (0x2000 : BitVec 64) = excBit Exc.fpOverflow.num := by decide
  have hunder : (0x4000 : BitVec 64) = excBit Exc.fpUnderflow.num := by decide
  rw [State.fpRaised, hover, hunder]
  rfl

/-- THE PROCEDURE OF R314. -/
theorem State.fpFinish_eq (s : State) (d : RegNum) (listed : List Exc) (denormal : Bool) (cmp : EstFlags) (c : FpCalc) :
    s.fpFinish d listed denormal cmp c =
      let es := s.fpRaised listed denormal c
      s.fpOutcome es ((((s.notedAll es).writeFp d (BitVec.ofNat s.cfg.fpw c.bits)).setFlags
        (fpFlags cmp (fpResultFlags s.cfg.fpFmt c.bits) es c.inexact)).advance) := by
  rw [State.fpFinish, State.fpExceptions_eq_fpRaised]
  exact s.complete_excMask _ _

theorem State.fpBinary_pass {s : State} {mn : Mnemonic} {d r : RegNum} (himpl : s.cfg.implementsFp mn = true)
    (hregs : s.fpsExist [d, r] = true) (listed : List Exc) (op : FpVal → FpVal → FpCalc) :
    let x := s.fpValue d
    let y := s.fpValue r
    s.fpBinary mn listed d r op =
      s.fpFinish d listed (FpVal.isDenormal s.cfg.fpFmt x || FpVal.isDenormal s.cfg.fpFmt y) (fpCompareFlags x y) (op x y) :=
  State.checkAlu_pass himpl hregs _

theorem State.fpUnary_pass {s : State} {mn : Mnemonic} {d : RegNum} (himpl : s.cfg.implementsFp mn = true)
    (hregs : s.fpsExist [d] = true) (listed : List Exc) (op : FpVal → FpCalc) :
    let x := s.fpValue d
    s.fpUnary mn listed d op = s.fpFinish d listed (FpVal.isDenormal s.cfg.fpFmt x) {} (op x) :=
  State.checkAlu_pass himpl hregs _

theorem State.fpTernary_pass {s : State} {mn : Mnemonic} {d r r2 : RegNum} (himpl : s.cfg.implementsFp mn = true)
    (hregs : s.fpsExist [d, r, r2] = true) (op : FpVal → FpVal → FpVal → FpCalc) :
    let x := s.fpValue d
    let y := s.fpValue r
    let z := s.fpValue r2
    s.fpTernary mn d r r2 op =
      s.fpFinish d arithExceptions ((FpVal.isDenormal s.cfg.fpFmt x || FpVal.isDenormal s.cfg.fpFmt y) ||
        FpVal.isDenormal s.cfg.fpFmt z) (fpCompareFlags x y) (op x y z) :=
  (State.checkAlu_pass himpl hregs _).trans (by rw [Bool.or_assoc])

/-- Settles O32: all seven end in the procedure of R314. -/
theorem fpBinaryTernaryResult : Obligations.FpBinaryTernaryResult := by
  intro s d r r2 hregs f x y z listed two done nan
  have hpair : s.fpsExist [d, r] = true := by
    rw [State.fpsExist_iff] at hregs ⊢
    exact fun q hq => hregs q (by simp at hq ⊢; tauto)
  refine ⟨fun h => ?_, fun h => ?_, fun h => ?_, fun h => ?_, fun h => ?_, fun h => ?_, fun h => ?_⟩
  · exact congrArg _ ((State.fpBinary_pass h hpair _ _).trans (s.fpFinish_eq ..))
  · exact congrArg _ ((State.fpBinary_pass h hpair _ _).trans (s.fpFinish_eq ..))
  · exact congrArg _ ((State.fpBinary_pass h hpair _ _).trans (s.fpFinish_eq ..))
  · exact congrArg _ ((State.fpBinary_pass h hpair _ _).trans (s.fpFinish_eq ..))
  · exact congrArg _ ((State.fpBinary_pass h hpair _ _).trans (s.fpFinish_eq ..))
  · exact congrArg _ ((State.fpTernary_pass h hregs _).trans (s.fpFinish_eq ..))
  · exact congrArg _ ((State.fpTernary_pass h hregs _).trans (s.fpFinish_eq ..))

/-- Settles O33. -/
theorem fpUnaryResult : Obligations.FpUnaryResult := by
  intro s m u d hregs f x narrow done
  refine ⟨fun h => ?_, fun h => ?_, fun h => ?_, fun h => ?_⟩
  · exact congrArg _ ((State.fpUnary_pass h hregs _ _).trans (s.fpFinish_eq ..))
  · exact congrArg _ ((State.fpUnary_pass h hregs _ _).trans (s.fpFinish_eq ..))
  · exact congrArg _ ((State.checkAlu_pass h hregs _).trans (s.fpFinish_eq ..))
  · exact congrArg _ ((State.checkAlu_pass h hregs _).trans (s.fpFinish_eq ..))

/-! ## FABS and FNEG -/

/-- A NaN is not denormalized. -/
theorem isDenormal_of_isSignaling {f : FpFmt} {x : FpVal} (h : FpVal.isSignaling x = true) : FpVal.isDenormal f x = false := by
  cases x with
  | nan _ _ _ => rfl
  | _ => cases h

/-- The exceptions of an exact operation: a denormalized operand, or an invalid one (R314). -/
theorem State.fpRaised_exact (s : State) (denormal : Bool) (bits : Nat) :
    s.fpRaised [.fpInvalidOperation, .fpDenormalizedOperand] denormal { bits := bits } =
      if denormal then [Exc.fpDenormalizedOperand] else [] := by
  cases denormal <;> rfl

theorem State.fpRaised_invalid (s : State) (bits : Nat) :
    s.fpRaised [.fpInvalidOperation, .fpDenormalizedOperand] false { bits := bits, invalid := true } =
      [.fpInvalidOperation] := rfl

/-- The flags of the quiet NaN the hardware writes (R315). -/
theorem fpResultFlags_quietNan {f : FpFmt} (h : 1 ≤ f.fracBits) : fpResultFlags f (FpFmt.quietNan f) = { nan := true } := by
  rw [fpResultFlags, unpack_quietNan h]
  rfl

/-- Both instructions end in the procedure of R314 with the pattern under another sign (R323, R324). -/
theorem exec_fpSign {s : State} {neg : Bool} {d : RegNum} (hregs : s.fpsExist [d] = true)
    (himpl : s.cfg.implementsFp (if neg then .fneg else .fabs) = true) :
    let f := s.cfg.fpFmt
    let bits := (s.readFp d).toNat
    exec (if neg then Instr.fneg d else .fabs d) s = .next (s.fpFinish d [.fpInvalidOperation, .fpDenormalizedOperand]
      (FpVal.isDenormal f (s.fpValue d)) {} (fpWithSign f (s.fpValue d) bits (neg && !FpFmt.signBit f bits))) := by
  cases neg
  exacts [congrArg _ (State.fpUnary_pass himpl hregs _ _), congrArg _ (State.fpUnary_pass himpl hregs _ _)]

/-- The bits of a pattern with another sign. -/
theorem testBit_signed_mod (f : FpFmt) (sign : Bool) (bits : Nat) {k : Nat} (hk : k < FpFmt.width f) :
    (FpFmt.signed f sign (bits % 2 ^ (f.expBits + f.fracBits))).testBit k =
      if k = FpFmt.width f - 1 then sign else bits.testBit k := by
  have hlt : bits % 2 ^ (f.expBits + f.fracBits) < 2 ^ (f.expBits + f.fracBits) := Nat.mod_lt _ (Nat.two_pow_pos _)
  have hw : FpFmt.width f - 1 = f.expBits + f.fracBits := by rw [FpFmt.width]; omega
  split
  · next h =>
    rw [h, hw]
    exact (signed_fields sign hlt).1
  · next h =>
    have hk' : k < f.expBits + f.fracBits := by omega
    cases sign
    · simp [FpFmt.signed, Nat.testBit_mod_two_pow, hk']
    · simp [FpFmt.signed, Nat.testBit_two_pow_add_gt hk', Nat.testBit_mod_two_pow, hk']

theorem signed_lt (f : FpFmt) (sign : Bool) {mag : Nat} (h : mag < 2 ^ (f.expBits + f.fracBits)) :
    FpFmt.signed f sign mag < 2 ^ FpFmt.width f := by
  rw [FpFmt.width, Nat.add_assoc, Nat.add_comm 1, pow_succ, FpFmt.signed]
  cases sign <;> simp <;> omega

/-- Settles O34. -/
theorem fpSignOperationsResult : Obligations.FpSignOperationsResult := by
  intro s neg d hregs hfrac himpl f x i den sign
  have hexec := exec_fpSign hregs himpl
  have hsign : sign = FpFmt.signBit f (s.readFp d).toNat := by
    change (s.readFp d).toNat.testBit (FpFmt.width f - 1) = _
    rw [FpFmt.signBit, FpFmt.width, Nat.add_assoc, Nat.add_sub_cancel_left]
  refine ⟨fun hx => ?quiet, fun hx => ?signaling⟩
  case quiet =>
    have hlt := signed_lt f (neg && !sign) (Nat.mod_lt (s.readFp d).toNat (Nat.two_pow_pos (f.expBits + f.fracBits)))
    refine ⟨BitVec.ofNat s.cfg.fpw (FpFmt.signed f (neg && !sign) ((s.readFp d).toNat % 2 ^ (f.expBits + f.fracBits))),
      fun k hk => ?pattern, ?runs⟩
    case pattern =>
      rw [BitVec.getLsbD_ofNat, decide_eq_true hk, Bool.true_and]
      exact testBit_signed_mod f _ _ hk
    case runs =>
      have hc : fpWithSign f x (s.readFp d).toNat (neg && !FpFmt.signBit f (s.readFp d).toNat) =
          { bits := FpFmt.signed f (neg && !sign) ((s.readFp d).toNat % 2 ^ (f.expBits + f.fracBits)) } := by
        rw [fpWithSign, hx, if_neg (by decide), hsign]
      have hmod : FpFmt.signed f (neg && !sign) ((s.readFp d).toNat % 2 ^ (f.expBits + f.fracBits)) % 2 ^ s.cfg.fpw =
          FpFmt.signed f (neg && !sign) ((s.readFp d).toNat % 2 ^ (f.expBits + f.fracBits)) := Nat.mod_eq_of_lt hlt
      rw [BitVec.toNat_ofNat, hmod, hexec]
      refine congrArg _ ((congrArg _ hc).trans ((s.fpFinish_eq ..).trans ?_))
      rw [State.fpRaised_exact]
  case signaling =>
    have hc : fpWithSign f x (s.readFp d).toNat (neg && !FpFmt.signBit f (s.readFp d).toNat) = FpFmt.invalidResult f := by
      rw [fpWithSign, hx, if_pos rfl]
    have hden : FpVal.isDenormal s.cfg.fpFmt (s.fpValue d) = false := isDenormal_of_isSignaling hx
    rw [hexec]
    refine congrArg _ ((congrArg _ hc).trans ((s.fpFinish_eq ..).trans ?_))
    rw [hden, FpFmt.invalidResult, State.fpRaised_invalid, fpResultFlags_quietNan hfrac]
    rfl

/-! ## FCMP -/

/-- Settles O35. -/
theorem fpCompareResult : Obligations.FpCompareResult := by
  intro s d r hregs himpl f x y denormal signaling nan es flags
  have hflags : fcmpFlags f x y = flags := by
    have hbeq (o : Ordering) : (FpVal.compare x y == some o) = decide (FpVal.compare x y = some o) := by
      rw [Bool.eq_iff_iff, beq_iff_eq, decide_eq_true_iff]
    rw [fcmpFlags, fpCompareFlags, hbeq, hbeq, hbeq]
  refine ⟨?_, fun hx hy => compare_of_finite hx hy⟩
  rw [← hflags]
  exact congrArg _ ((State.checkAlu_pass himpl hregs _).trans (s.complete_excMask es _))

/-! ## FF2I and FSQZ -/

/-- FF2I on the integer its operand converts to, or on none (R326). -/
theorem exec_ff2i {s : State} {m : MMode} {u : Bool} {d : RegNum} {n : Option (Int × Bool)} {es : List Exc}
    (hregs : s.fpsExist [d] = true) (himpl : s.cfg.implementsConvert .ff2i m = true) (hn : s.fpToInt (s.fpValue d) = n)
    (hes : ff2iExceptions u m.width (FpVal.isDenormal s.cfg.fpFmt (s.fpValue d)) n = es) :
    let res := BitVec.ofInt m.width ((n.map Prod.fst).getD 0)
    (ff2iInvalid u m.width n = true →
      exec (.ff2i m u d) s = .next (s.fpOutcome es ((s.notedAll es).setFlags (ff2iSkipFlags es)).advance)) ∧
    (ff2iInvalid u m.width n = false →
      exec (.ff2i m u d) s = .next (s.fpOutcome es ((((s.notedAll es).writeFpPart d res).setFlags
        (fpFlags {} { sign := res.msb, zero := res == 0 } es false)).advance))) := by
  subst hn hes
  have hexec : s.ff2i m u d = _ := (State.checkAlu_pass himpl hregs _).trans (s.complete_excMask _ _)
  refine ⟨fun h => congrArg _ (hexec.trans ?_), fun h => congrArg _ (hexec.trans ?_)⟩
  · rw [if_pos h]
  · rw [if_neg (Bool.eq_false_iff.1 h)]

theorem fpToInt_of_not_finite (s : State) {x : FpVal} (h : FpVal.isFinite x = false) : s.fpToInt x = none := by
  cases x with
  | fin _ _ _ => cases h
  | _ => rfl

/-- Settles O36: the integer in range, out of range, and none; FSQZ as the procedure of R314 in the narrow format. -/
theorem fpNarrowingResult : Obligations.FpNarrowingResult := by
  intro s m u d hregs f x denormal den inside
  refine ⟨fun h => ?ff2i, fun h => ?fsqz⟩
  case fsqz =>
    intro c es
    have hes : s.fpExceptions arithExceptions denormal c = es := s.fpExceptions_eq_fpRaised ..
    rw [← hes]
    exact congrArg _ ((State.checkAlu_pass h hregs _).trans (s.complete_excMask _ _))
  case ff2i =>
    refine ⟨fun n exact hn hin => ?inRange, fun n exact hn hout => ?outOfRange, fun hx => ?notFinite⟩
    case inRange =>
      intro es res
      have hr : inRange u m.width n = true := inRange_iff.2 hin
      have hes : ff2iExceptions u m.width denormal (some (n, exact)) = es := by simp [ff2iExceptions, hr, es, den]
      have hzero : (res == 0) = decide (res.toNat = 0) := by
        rw [Bool.eq_iff_iff, beq_zero_iff_toNat, decide_eq_true_iff]
      have hflags : fpFlags {} { sign := res.msb, zero := res == 0 } es false =
          { sign := res.getLsbD (m.width - 1), zero := decide (res.toNat = 0), inexact := !exact, denormalized := denormal } := by
        rw [BitVec.msb_eq_getLsbD_last, hzero]
        cases hd : denormal <;> cases exact <;> simp [fpFlags, es, den, hd]
      rw [← hflags]
      exact (exec_ff2i hregs h hn hes).2 (by simp [ff2iInvalid, hr])
    case outOfRange =>
      intro es
      have hr : inRange u m.width n = false := Bool.eq_false_iff.2 fun hr => hout (inRange_iff.1 hr)
      have hes : ff2iExceptions u m.width denormal (some (n, exact)) = es := by simp [ff2iExceptions, hr, es, den]
      have hflags : ff2iSkipFlags es = { invalidOperation := true, overflow := true, denormalized := denormal } := by
        cases hd : denormal <;> simp [ff2iSkipFlags, es, den, hd]
      rw [← hflags]
      exact (exec_ff2i hregs h hn hes).1 (by simp [ff2iInvalid, hr])
    case notFinite =>
      intro es
      have hes : ff2iExceptions u m.width denormal none = es := rfl
      have hflags : ff2iSkipFlags es = { invalidOperation := true, denormalized := denormal } := by
        cases hd : denormal <;> simp [ff2iSkipFlags, es, den, hd]
      rw [← hflags]
      exact (exec_ff2i hregs h (fpToInt_of_not_finite s hx) hes).1 rfl

end Sys2Proof.Machine

/-! PROOFS about the bits of EXECUTION STATUS (10_state.md R41, R43, 45_floating_point.md R315). -/
namespace Sys2Proof.Machine

/-! ## The places of the flags -/

theorem getLsbD_ofBool_append {n : Nat} (b : Bool) (x : BitVec n) (i : Nat) :
    (BitVec.ofBool b ++ x).getLsbD i = if i = n then b else x.getLsbD i := by
  rcases Nat.lt_trichotomy i n with h | h | h
  · rw [getLsbD_append_low _ _ h, if_neg h.ne]
  · subst h
    rw [getLsbD_append_high (j := 0) _ x (by omega), if_pos rfl, BitVec.getLsbD_ofBool]
    simp
  · rw [getLsbD_append_high _ _ (j := i - n) (by omega), if_neg h.ne', BitVec.getLsbD_of_ge x i h.le,
      BitVec.getLsbD_of_ge _ _ (by omega)]

/-- The place of each flag (R41). -/
theorem EstFlags.getLsbD_bits (f : EstFlags) :
    f.bits.getLsbD 0 = f.invalidOperation ∧ f.bits.getLsbD 1 = f.unimplementedOperation ∧
    f.bits.getLsbD 2 = f.divisionByZero ∧ f.bits.getLsbD 3 = f.overflow ∧ f.bits.getLsbD 4 = f.underflow ∧
    f.bits.getLsbD 5 = f.equal ∧ f.bits.getLsbD 6 = f.greaterThan ∧ f.bits.getLsbD 7 = f.lessThan ∧
    f.bits.getLsbD 8 = f.inexact ∧ f.bits.getLsbD 9 = f.unordered ∧ f.bits.getLsbD 10 = f.sign ∧
    f.bits.getLsbD 11 = f.zero ∧ f.bits.getLsbD 12 = f.denormalized ∧ f.bits.getLsbD 13 = f.infinity ∧
    f.bits.getLsbD 14 = f.signalingNan ∧ f.bits.getLsbD 15 = f.nan := by
  simp only [EstFlags.bits, getLsbD_ofBool_append, BitVec.getLsbD_ofBool]
  simp

theorem State.getLsbD_setFlags_est (s : State) (f : EstFlags) {k : Nat} (hk : k < 16) :
    (s.setFlags f).est.getLsbD k = f.bits.getLsbD k := getLsbD_append_low _ _ hk

/-! ## The flags of an FP result -/

/-- The flags that describe a pattern, from its fields (R315). -/
theorem fpResultFlags_fields {f : FpFmt} (he : 1 ≤ f.expBits) (bits : Nat) :
    let e := bits / 2 ^ f.fracBits % 2 ^ f.expBits
    let frac := bits % 2 ^ f.fracBits
    let nan := e = 2 ^ f.expBits - 1 ∧ frac ≠ 0
    ((fpResultFlags f bits).sign = true ↔ bits.testBit (f.expBits + f.fracBits) = true ∧ ¬nan) ∧
    ((fpResultFlags f bits).zero = true ↔ e = 0 ∧ frac = 0) ∧
    ((fpResultFlags f bits).denormalized = true ↔ e = 0 ∧ frac ≠ 0) ∧
    ((fpResultFlags f bits).infinity = true ↔ e = 2 ^ f.expBits - 1 ∧ frac = 0) ∧
    ((fpResultFlags f bits).signalingNan = true ↔ nan ∧ frac.testBit (f.fracBits - 1) = false) ∧
    ((fpResultFlags f bits).nan = true ↔ nan) := by
  have hmax : 2 ^ f.expBits - 1 ≠ 0 := by
    have : 2 ^ 1 ≤ 2 ^ f.expBits := Nat.pow_le_pow_right (by decide) he
    omega
  have hfrac : bits % 2 ^ f.fracBits < 2 ^ f.fracBits := Nat.mod_lt _ (Nat.two_pow_pos _)
  have hpos : 0 < 2 ^ f.fracBits := Nat.two_pow_pos _
  intro e frac nan
  by_cases hE : e = 2 ^ f.expBits - 1
  case pos =>
    by_cases hF : frac = 0
    case pos =>
      have hu : FpFmt.unpack f bits = .inf (FpFmt.signBit f bits) := by
        rw [FpFmt.unpack, if_pos hE, if_pos hF]
      simp only [fpResultFlags, hu, nan, hE, hF, FpFmt.signBit]
      simp [hmax]
    case neg =>
      have hu : FpFmt.unpack f bits = .nan (FpFmt.signBit f bits) (frac.testBit (f.fracBits - 1)) frac := by
        rw [FpFmt.unpack, if_pos hE, if_neg hF]
      simp only [fpResultFlags, hu, nan, hE]
      simp [hmax, hF]
  case neg =>
    by_cases h0 : e = 0
    case pos =>
      have hu : FpFmt.unpack f bits = .fin (FpFmt.signBit f bits) frac (FpFmt.minQuantum f) := by
        rw [FpFmt.unpack, if_neg hE, if_pos h0]
      simp only [fpResultFlags, hu, nan, h0, FpVal.isDenormal, FpFmt.signBit]
      simp [hmax.symm, frac, hfrac]
    case neg =>
      have hu : FpFmt.unpack f bits = .fin (FpFmt.signBit f bits) (2 ^ f.fracBits + frac) ((e : Int) - 1 + FpFmt.minQuantum f) := by
        rw [FpFmt.unpack, if_neg hE, if_neg h0]
      simp only [fpResultFlags, hu, nan, hE, h0, FpVal.isDenormal, FpFmt.signBit]
      simp

theorem fpResultFlags_unset (f : FpFmt) (bits : Nat) :
    (fpResultFlags f bits).unordered = false ∧ (fpResultFlags f bits).unimplementedOperation = false := by
  rw [fpResultFlags]
  split <;> exact ⟨rfl, rfl⟩

/-! ## The comparison -/

/-- Settles O42. -/
theorem statusFlagBits : Obligations.StatusFlagBits := by
  refine ⟨fun s f => ?places, fun s f bits cmp es inexact he hf => ?result, fun x y => ?comparison⟩
  case places =>
    obtain ⟨h0, h1, h2, h3, h4, h5, h6, h7, h8, h9, h10, h11, h12, h13, h14, h15⟩ := f.getLsbD_bits
    refine ⟨rfl, fun k hk hk' => ?_, ?_⟩
    · rw [State.setFlags, getLsbD_append_high _ _ (j := k - 16) (by omega), BitVec.getLsbD_extractLsb',
        decide_eq_true (by omega), Bool.true_and, show 16 + (k - 16) = k by omega]
    · refine ⟨?_, ?_, ?_, ?_, ?_, ?_, ?_, ?_, ?_, ?_, ?_, ?_, ?_, ?_, ?_, ?_⟩ <;>
        rw [s.getLsbD_setFlags_est f (by decide)] <;> assumption
  case result =>
    intro est flag e frac nan
    have hflag (k : Nat) (hk : k < 16) : flag k ↔ (fpFlags cmp (fpResultFlags f bits) es inexact).bits.getLsbD k = true := by
      rw [← s.getLsbD_setFlags_est _ hk]
    obtain ⟨h0, h1, h2, h3, h4, h5, h6, h7, h8, h9, h10, h11, h12, h13, h14, h15⟩ :=
      (fpFlags cmp (fpResultFlags f bits) es inexact).getLsbD_bits
    obtain ⟨hsign, hzero, hden, hinf, hsnan, hnan⟩ := fpResultFlags_fields he bits
    obtain ⟨hunordered, hunimplemented⟩ := fpResultFlags_unset f bits
    refine ⟨?_, ?_, ?_, ?_, ?_, ?_, ?_, ?_, ?_, ?_, ?_, ?_, ?_, ?_, ?_, ?_⟩ <;> rw [hflag _ (by decide)]
    · rw [h0, fpFlags, List.contains_iff_mem]
    · rw [h1, fpFlags, hunimplemented]
      decide
    · rw [h2, fpFlags, List.contains_iff_mem]
    · rw [h3, fpFlags, List.contains_iff_mem]
    · rw [h4, fpFlags, Bool.and_eq_true, List.contains_iff_mem]
    · rw [h5, fpFlags]
    · rw [h6, fpFlags]
    · rw [h7, fpFlags]
    · rw [h8, fpFlags, List.contains_iff_mem]
    · rw [h9, fpFlags, hunordered]
      decide
    · exact (by rw [h10, fpFlags] : _ ↔ (fpResultFlags f bits).sign = true).trans hsign
    · exact (by rw [h11, fpFlags] : _ ↔ (fpResultFlags f bits).zero = true).trans hzero
    · rw [h12, fpFlags, Bool.or_eq_true, List.contains_iff_mem, hden]
    · exact (by rw [h13, fpFlags] : _ ↔ (fpResultFlags f bits).infinity = true).trans hinf
    · exact (by rw [h14, fpFlags] : _ ↔ (fpResultFlags f bits).signalingNan = true).trans hsnan
    · exact (by rw [h15, fpFlags] : _ ↔ (fpResultFlags f bits).nan = true).trans hnan
  case comparison =>
    intro finite below
    simp only [fpCompareFlags, beq_iff_eq, finite, below]
    rcases x with ⟨s, q, r⟩ | s | ⟨s, m, e⟩
    case nan => simp [FpVal.compare, FpVal.isFinite, FpVal.isNan]
    case inf =>
      rcases y with ⟨t, q, r⟩ | t | ⟨t, n, g⟩
      · simp [FpVal.compare, FpVal.isFinite, FpVal.isNan]
      · cases s <;> cases t <;> simp [FpVal.compare, FpVal.isFinite, FpVal.isNan]
      · cases s <;> simp [FpVal.compare, FpVal.isFinite, FpVal.isNan]
    case fin =>
      rcases y with ⟨t, q, r⟩ | t | ⟨t, n, g⟩
      · simp [FpVal.compare, FpVal.isFinite, FpVal.isNan]
      · cases t <;> simp [FpVal.compare, FpVal.isFinite, FpVal.isNan]
      · obtain ⟨hlt, heq, hgt⟩ := compare_of_finite (x := .fin s m e) (y := .fin t n g) rfl rfl
        simp [hlt, heq, hgt, FpVal.isFinite]

end Sys2Proof.Machine

/-! PROOFS about rounding in the assigned modes (45_floating_point.md R312, R313). -/
namespace Sys2Proof.Machine

/-! ## Exact quotients -/

/-- A power of two with an integer exponent as a quotient of two with natural ones. -/
theorem zpow_eq_div (k : Int) : (2 : Rat) ^ k = 2 ^ k.toNat / 2 ^ (-k).toNat := by
  rw [← zpow_natCast, ← zpow_natCast, ← zpow_sub₀ (by norm_num)]
  congr 1
  omega

/-- The quotient and the remainder of `n/d * 2^k` by one. -/
theorem scaledDiv_spec (n : Nat) {d : Nat} (hd : 0 < d) (k : Int) :
    let qr := scaledDiv n d k
    qr.2.1 < qr.2.2 ∧ (n : Rat) / d * 2 ^ k = qr.1 + (qr.2.1 : Rat) / qr.2.2 := by
  have hbot : 0 < d * 2 ^ (-k).toNat := by positivity
  refine ⟨Nat.mod_lt _ hbot, ?_⟩
  have hdm := Nat.div_add_mod (n * 2 ^ k.toNat) (d * 2 ^ (-k).toNat)
  have hcast : ((n * 2 ^ k.toNat : Nat) : Rat) = _ := congrArg _ hdm.symm
  have hbot' : ((d * 2 ^ (-k).toNat : Nat) : Rat) ≠ 0 := by exact_mod_cast hbot.ne'
  rw [zpow_eq_div, div_mul_div_comm]
  dsimp only [scaledDiv]
  rw [eq_comm, ← mul_left_inj' hbot', add_mul, div_mul_cancel₀ _ hbot', mul_comm]
  push_cast at hcast hbot' ⊢
  rw [div_mul_cancel₀ _ hbot', hcast]

/-- `floorLog` is the floor of the binary logarithm. -/
theorem floorLog_spec {n d : Nat} (hn : 0 < n) (hd : 0 < d) :
    (2 : Rat) ^ floorLog n d ≤ (n : Rat) / d ∧ (n : Rat) / d < 2 ^ (floorLog n d + 1) := by
  have hd' : (0 : Rat) < d := by exact_mod_cast hd
  have hlo (a : Nat) (ha : 0 < a) : (2 : Rat) ^ (a.log2 : Int) ≤ a := by
    rw [zpow_natCast]
    exact_mod_cast Nat.log2_self_le ha.ne'
  have hhi (a : Nat) : (a : Rat) < 2 ^ ((a.log2 : Int) + 1) := by
    have := Nat.lt_log2_self (n := a)
    have hcast : ((a.log2 : Int) + 1) = ((a.log2 + 1 : Nat) : Int) := by push_cast; rfl
    rw [hcast, zpow_natCast]
    exact_mod_cast this
  have htwo : (2 : Rat) ≠ 0 := by norm_num
  set l : Int := (n.log2 : Int) - (d.log2 : Int) with hl
  have hupper : (n : Rat) / d < 2 ^ (l + 1) := by
    rw [div_lt_iff₀ hd']
    calc (n : Rat) < 2 ^ ((n.log2 : Int) + 1) := hhi n
      _ = 2 ^ (l + 1) * 2 ^ (d.log2 : Int) := by rw [← zpow_add₀ htwo]; congr 1; omega
      _ ≤ 2 ^ (l + 1) * d := by gcongr; exact hlo d hd
  have hlower : (2 : Rat) ^ (l - 1) ≤ (n : Rat) / d := by
    rw [le_div_iff₀ hd']
    calc (2 : Rat) ^ (l - 1) * d ≤ 2 ^ (l - 1) * 2 ^ ((d.log2 : Int) + 1) := by gcongr; exact (hhi d).le
      _ = 2 ^ (n.log2 : Int) := by rw [← zpow_add₀ htwo]; congr 1; omega
      _ ≤ n := hlo n hn
  have hcond : d * 2 ^ l.toNat ≤ n * 2 ^ (-l).toNat ↔ (2 : Rat) ^ l ≤ (n : Rat) / d := by
    rw [zpow_eq_div, div_le_div_iff₀ (by positivity) hd', mul_comm ((2 : Rat) ^ l.toNat)]
    exact_mod_cast Iff.rfl
  have hfloor : floorLog n d = if d * 2 ^ l.toNat ≤ n * 2 ^ (-l).toNat then l else l - 1 := rfl
  rw [hfloor]
  split
  · next h => exact ⟨hcond.1 h, hupper⟩
  · next h =>
    refine ⟨hlower, ?_⟩
    rw [Int.sub_add_cancel]
    exact not_le.1 fun hc => h (hcond.2 hc)

/-! ## The direction of rounding -/

/-- An exact value is not rounded up. -/
theorem Rounding.up_zero (mode : Rounding) (sign : Bool) (q : Nat) {d : Nat} (hd : 0 < d) :
    Rounding.up mode sign q 0 d = false := by
  cases mode <;> simp [Rounding.up, hd.ne]

/-- A remainder of `r` in `d` rounds up where the mode goes to the upper neighbour (R313). -/
theorem Rounding.up_iff_goesUp (mode : Rounding) (sign : Bool) (q : Nat) {r d : Nat} (hr : 0 < r) (hd : 0 < d)
    {lo v hi s : Rat} (hs : 0 < s) (hlo : v - lo = (r : Rat) / d * s) (hhi : hi - v = (1 - (r : Rat) / d) * s) :
    Rounding.up mode sign q r d = true ↔ Rounding.goesUp mode sign (decide (q % 2 = 1)) lo v hi := by
  have hd' : (0 : Rat) < d := by exact_mod_cast hd
  have hnearer : hi - v < v - lo ↔ d < 2 * r := by
    rw [hlo, hhi, mul_lt_mul_iff_left₀ hs, sub_lt_iff_lt_add, ← add_div, lt_div_iff₀ hd', one_mul, ← two_mul]
    exact_mod_cast Iff.rfl
  have htie : hi - v = v - lo ↔ 2 * r = d := by
    rw [hlo, hhi, mul_left_inj' hs.ne', sub_eq_iff_eq_add, ← add_div, eq_div_iff hd'.ne', one_mul, ← two_mul, eq_comm]
    exact_mod_cast Iff.rfl
  cases mode <;> simp only [Rounding.up, Rounding.goesUp, hnearer, htie] <;> simp [hr.ne']

/-! ## Rounding to the format -/

/-- The exact value `n/d * 2^x` in units of its quantum: a mantissa of the format, and a rest below one. -/
theorem roundMag_spec (f : FpFmt) {n d : Nat} (hn : 0 < n) (hd : 0 < d) (x : Int) :
    let u := FpFmt.quantum f n d x
    let qr := scaledDiv n d (x - u)
    FpFmt.Holds f qr.1 u ∧ qr.1 < 2 ^ (f.fracBits + 1) ∧ qr.2.1 < qr.2.2 ∧
      (n : Rat) / d * 2 ^ x = (qr.1 + (qr.2.1 : Rat) / qr.2.2) * 2 ^ u := by
  intro u qr
  have htwo : (2 : Rat) ≠ 0 := by norm_num
  have hu : (0 : Rat) < 2 ^ u := by positivity
  obtain ⟨hlt, heq⟩ : qr.2.1 < qr.2.2 ∧ (n : Rat) / d * 2 ^ (x - u) = qr.1 + (qr.2.1 : Rat) / qr.2.2 :=
    scaledDiv_spec n hd (x - u)
  obtain ⟨hlo, hhi⟩ := floorLog_spec hn hd
  have hrest : 0 ≤ (qr.2.1 : Rat) / qr.2.2 ∧ (qr.2.1 : Rat) / qr.2.2 < 1 := by
    have : (0 : Rat) < qr.2.2 := by exact_mod_cast (by omega : 0 < qr.2.2)
    exact ⟨by positivity, (div_lt_one this).2 (by exact_mod_cast hlt)⟩
  have hmant : qr.1 < 2 ^ (f.fracBits + 1) := by
    have hq : (qr.1 : Rat) < 2 ^ ((f.fracBits : Int) + 1) := by
      calc (qr.1 : Rat) ≤ (n : Rat) / d * 2 ^ (x - u) := by rw [heq]; linarith [hrest.1]
        _ < 2 ^ (floorLog n d + 1) * 2 ^ (x - u) := by gcongr
        _ = 2 ^ (floorLog n d + 1 + (x - u)) := (zpow_add₀ htwo _ _).symm
        _ ≤ 2 ^ ((f.fracBits : Int) + 1) := by
          refine zpow_le_zpow_right₀ (by norm_num) ?_
          have : floorLog n d + x - (f.fracBits : Int) ≤ u := le_max_left _ _
          omega
    have hcast : ((f.fracBits : Int) + 1) = ((f.fracBits + 1 : Nat) : Int) := by push_cast; rfl
    rw [hcast, zpow_natCast] at hq
    exact_mod_cast hq
  have hnormal : u = FpFmt.minQuantum f ∨ 2 ^ f.fracBits ≤ qr.1 := by
    rcases max_choice (floorLog n d + x - (f.fracBits : Int)) (FpFmt.minQuantum f) with hmax | hmax
    · right
      have hu' : u = floorLog n d + x - (f.fracBits : Int) := hmax
      have hge : (2 : Rat) ^ (f.fracBits : Int) ≤ (n : Rat) / d * 2 ^ (x - u) := by
        calc (2 : Rat) ^ (f.fracBits : Int) = 2 ^ floorLog n d * 2 ^ (x - u) := by
              rw [← zpow_add₀ htwo]
              congr 1
              omega
          _ ≤ (n : Rat) / d * 2 ^ (x - u) := by gcongr
      rw [heq, zpow_natCast] at hge
      have hlt' : ((2 ^ f.fracBits : Nat) : Rat) < ((qr.1 + 1 : Nat) : Rat) := by
        push_cast
        linarith [hrest.2]
      have := Nat.cast_lt.1 hlt'
      omega
    · exact .inl hmax
  refine ⟨⟨le_max_right _ _, hmant.le, hnormal⟩, hmant, hlt, ?_⟩
  rw [← heq, mul_assoc, ← zpow_add₀ htwo, Int.sub_add_cancel]

/-- Settles O43: the mantissa and the next one are the neighbours, and the rest decides between them. -/
theorem fpRounding : Obligations.FpRounding := by
  intro f mode sign n d x hf hn hd v lo r up
  obtain ⟨hholds, hmant, hlt, hv⟩ := roundMag_spec f hn hd x
  set u := FpFmt.quantum f n d x
  set qr := scaledDiv n d (x - u)
  have hu : (0 : Rat) < 2 ^ u := by positivity
  have hbot : (0 : Rat) < qr.2.2 := by exact_mod_cast (by omega : 0 < qr.2.2)
  have hlo : lo = FpFmt.pattern f qr.1 u := rfl
  have hlow : FpFmt.magnitude f lo = qr.1 * 2 ^ u := hholds.magnitude_pattern
  have hhigh : FpFmt.magnitude f (lo + 1) = (qr.1 + 1) * 2 ^ u := by
    have hnext : FpFmt.Holds f (qr.1 + 1) u :=
      ⟨hholds.quantum, hmant, hholds.normal.imp_right fun h => Nat.le_succ_of_le h⟩
    have := hnext.magnitude_pattern
    push_cast at this
    exact this
  have hvlo : v - FpFmt.magnitude f lo = (qr.2.1 : Rat) / qr.2.2 * 2 ^ u := by
    rw [hlow]
    change (n : Rat) / d * 2 ^ x - _ = _
    rw [hv]
    ring
  have hhiv : FpFmt.magnitude f (lo + 1) - v = (1 - (qr.2.1 : Rat) / qr.2.2) * 2 ^ u := by
    rw [hhigh]
    change _ - (n : Rat) / d * 2 ^ x = _
    rw [hv]
    ring
  have hrest : (qr.2.1 : Rat) / qr.2.2 < 1 := (div_lt_one hbot).2 (by exact_mod_cast hlt)
  have hexact : v = FpFmt.magnitude f lo ↔ qr.2.1 = 0 := by
    rw [← sub_eq_zero, hvlo, mul_eq_zero, div_eq_zero_iff, Nat.cast_eq_zero]
    simp [hu.ne', hbot.ne']
  have hparity : lo % 2 = qr.1 % 2 := by
    obtain ⟨c, hc⟩ : 2 ∣ 2 ^ f.fracBits := dvd_pow_self 2 (by omega)
    rw [hlo, FpFmt.pattern, hc, Nat.mul_left_comm, Nat.mul_add_mod]
  have hr1 : r.1 = lo + (Rounding.up mode sign qr.1 qr.2.1 qr.2.2).toNat := (Nat.add_assoc ..).symm
  have hup (h : v ≠ FpFmt.magnitude f lo) : Rounding.up mode sign qr.1 qr.2.1 qr.2.2 = true ↔ up := by
    have := Rounding.up_iff_goesUp mode sign qr.1 (Nat.pos_of_ne_zero fun h0 => h (hexact.2 h0))
      (by omega : 0 < qr.2.2) hu hvlo hhiv
    rwa [← hparity] at this
  refine ⟨?_, ?_, ?_, fun h => ?_, fun h hgoes => ?_, fun h hstays => ?_⟩
  · have : 0 ≤ (qr.2.1 : Rat) / qr.2.2 * 2 ^ u := by positivity
    linarith
  · have : 0 < (1 - (qr.2.1 : Rat) / qr.2.2) * 2 ^ u := mul_pos (by linarith) hu
    linarith
  · rw [hexact]
    exact beq_iff_eq
  · rw [hr1, hexact.1 h, Rounding.up_zero _ _ _ (by omega)]
    rfl
  · rw [hr1, (hup h).2 hgoes]
    rfl
  · rw [hr1, Bool.eq_false_iff.2 fun hc => hstays ((hup h).1 hc)]
    rfl

end Sys2Proof.Machine

/-! PROOFS about what the floating-point operations compute: one rounding of the exact value, and the results that round
nothing (45_floating_point.md R314 to R330, 46_fused_multiply.md R353). -/
namespace Sys2Proof.Machine

/-! ## Finite values -/

theorem eq_fin_of_isFinite {x : FpVal} (h : FpVal.isFinite x = true) : ∃ sign m e, x = .fin sign m e := by
  cases x with
  | fin sign m e => exact ⟨sign, m, e, rfl⟩
  | _ => cases h

theorem rat_fin_eq_zero_iff {sign : Bool} {m : Nat} {e : Int} : FpVal.rat (.fin sign m e) = 0 ↔ m = 0 := by
  have hpow : (2 : Rat) ^ e ≠ 0 := by positivity
  cases sign <;> simp [FpVal.rat, hpow]

theorem rat_fin_neg_iff {sign : Bool} {m : Nat} {e : Int} : FpVal.rat (.fin sign m e) < 0 ↔ sign = true ∧ m ≠ 0 := by
  have hpow : (0 : Rat) < 2 ^ e := by positivity
  cases sign
  · have : (0 : Rat) ≤ m * 2 ^ e := by positivity
    simp [FpVal.rat, this]
  · have : (0 : Rat) < m * 2 ^ e ↔ m ≠ 0 := by rw [mul_pos_iff_of_pos_right hpow, Nat.cast_pos, Nat.pos_iff_ne_zero]
    simp [FpVal.rat, this]

theorem rat_fin_product (a b : Bool) (m n : Nat) (e g : Int) :
    FpVal.rat (.fin (a != b) (m * n) (e + g)) = FpVal.rat (.fin a m e) * FpVal.rat (.fin b n g) := by
  simp only [FpVal.rat, zpow_add₀ (two_ne_zero' Rat), Nat.cast_mul]
  cases a <;> cases b <;> simp <;> ring

/-! ## One rounding -/

/-- An integer as a sign and a magnitude. -/
theorem sign_mul_natAbs (i : Int) : (if decide (i < 0) then -1 else 1) * (i.natAbs : Rat) = i := by
  rw [Nat.cast_natAbs, Int.cast_abs]
  by_cases h : i < 0
  · have hneg : (i : Rat) < 0 := by exact_mod_cast h
    simp [h, abs_of_neg hneg]
  · have hnonneg : (0 : Rat) ≤ i := by exact_mod_cast not_lt.1 h
    simp [h, abs_of_nonneg hnonneg]

/-- The sum of two finite values as an integer in units of a power of two. -/
theorem scaled_add_scaled (a b : Bool) (m n : Nat) (e g : Int) :
    ((scaled a m e (min e g) + scaled b n g (min e g) : Int) : Rat) * 2 ^ (min e g) =
      FpVal.rat (.fin a m e) + FpVal.rat (.fin b n g) := by
  rw [Int.cast_add, add_mul, scaled_mul_zpow a m (min_le_left e g), scaled_mul_zpow b n (min_le_right e g)]

/-- The sum of two finite values, where it is not zero, is rounded once. -/
theorem State.fpAdd_rounds (s : State) (f : FpFmt) {x y : FpVal} (hx : FpVal.isFinite x = true)
    (hy : FpVal.isFinite y = true) (h : FpVal.rat x + FpVal.rat y ≠ 0) :
    ∃ (sign : Bool) (n : Nat) (e : Int), 0 < n ∧
      (if sign then -1 else 1) * (n : Rat) * 2 ^ e = FpVal.rat x + FpVal.rat y ∧ s.fpAdd f x y = s.rounded f sign n 1 e := by
  obtain ⟨a, m, e, rfl⟩ := eq_fin_of_isFinite hx
  obtain ⟨b, n, g, rfl⟩ := eq_fin_of_isFinite hy
  have hsum := scaled_add_scaled a b m n e g
  set sum := scaled a m e (min e g) + scaled b n g (min e g) with hdef
  have hne : sum ≠ 0 := fun h0 => h (by rw [← hsum, h0, Int.cast_zero, zero_mul])
  refine ⟨decide (sum < 0), sum.natAbs, min e g, Int.natAbs_pos.2 hne, ?_, ?_⟩
  · rw [sign_mul_natAbs, hsum]
  · simp only [State.fpAdd, ← hdef, if_neg hne]

/-- A finite value that is not zero is rounded once. -/
theorem State.fpDeliver_rounds (s : State) (f : FpFmt) {sign : Bool} {m : Nat} {e : Int}
    (h : FpVal.rat (.fin sign m e) ≠ 0) : s.fpDeliver f (.fin sign m e) = s.rounded f sign m 1 e :=
  if_neg fun h0 => h (rat_fin_eq_zero_iff.2 h0)

/-! ## What rounding delivers -/

/-- A value is tiny where it is below the smallest normal number (R314, D45). -/
theorem tiny_iff (f : FpFmt) {n d : Nat} (hn : 0 < n) (hd : 0 < d) (x : Int) :
    FpFmt.tiny f n d x = true ↔ (n : Rat) / d * 2 ^ x < 2 ^ (1 - (FpFmt.bias f : Int)) := by
  obtain ⟨hlo, hhi⟩ := floorLog_spec hn hd
  have htwo : (2 : Rat) ≠ 0 := by norm_num
  rw [FpFmt.tiny, decide_eq_true_iff]
  refine ⟨fun h => ?_, fun h => ?_⟩
  · calc (n : Rat) / d * 2 ^ x < 2 ^ (floorLog n d + 1) * 2 ^ x := by gcongr
      _ = 2 ^ (floorLog n d + 1 + x) := (zpow_add₀ htwo _ _).symm
      _ ≤ 2 ^ (1 - (FpFmt.bias f : Int)) := zpow_le_zpow_right₀ (by norm_num) (by omega)
  · by_contra hc
    refine absurd h (not_lt.2 ?_)
    calc (2 : Rat) ^ (1 - (FpFmt.bias f : Int)) ≤ 2 ^ (floorLog n d + x) := zpow_le_zpow_right₀ (by norm_num) (by omega)
      _ = 2 ^ floorLog n d * 2 ^ x := zpow_add₀ htwo _ _
      _ ≤ (n : Rat) / d * 2 ^ x := by gcongr

/-- Rounding in an assigned mode: an overflow, or the pattern with its sign (R314). -/
theorem State.rounded_of_mode {s : State} {mode : Rounding} (hmode : s.rounding = some mode) (f : FpFmt) (sign : Bool)
    (n d : Nat) (x : Int) :
    let r := FpFmt.roundMag f mode sign n d x
    s.rounded f sign n d x =
      if FpFmt.infBits f ≤ r.1 then { bits := FpFmt.overflowBits f mode sign, overflow := true, inexact := true }
      else { bits := FpFmt.signed f sign r.1, tiny := FpFmt.tiny f n d x, inexact := !r.2 } := by
  simp only [State.rounded, hmode]

/-- Settles O37. -/
theorem fpExactArithmetic : Obligations.FpExactArithmetic := by
  refine ⟨fun s f x y z hx hy hz => ?once, fun s f mode sign n d e hmode _ hn hd => ?delivers,
    fun f sign bits h => unpack_signed_of_lt sign h⟩
  case once =>
    intro roundsOnce
    have hint (c : FpCalc) (exact : Rat) (h : ∃ (sign : Bool) (n : Nat) (e : Int), 0 < n ∧
        (if sign then -1 else 1) * (n : Rat) * 2 ^ e = exact ∧ c = s.rounded f sign n 1 e) : roundsOnce c exact := by
      obtain ⟨sign, n, e, hn, hexact, hc⟩ := h
      exact ⟨sign, n, 1, e, hn, Nat.one_pos, by rw [Nat.cast_one, div_one, hexact], hc⟩
    obtain ⟨a, m, e, rfl⟩ := eq_fin_of_isFinite hx
    obtain ⟨b, n, g, rfl⟩ := eq_fin_of_isFinite hy
    have hproduct := rat_fin_product a b m n e g
    refine ⟨fun h => hint _ _ (s.fpAdd_rounds f hx hy h), fun h => hint _ _ ?mul, fun hb h => ?div, fun h => hint _ _ ?fma⟩
    case mul =>
      rw [← hproduct] at h ⊢
      refine ⟨a != b, m * n, e + g, Nat.pos_of_ne_zero fun h0 => h (rat_fin_eq_zero_iff.2 h0), rfl, ?_⟩
      exact s.fpDeliver_rounds f h
    case div =>
      have hm : m ≠ 0 := fun h0 => h (by rw [rat_fin_eq_zero_iff.2 h0, zero_div])
      have hn : n ≠ 0 := fun h0 => hb (rat_fin_eq_zero_iff.2 h0)
      refine ⟨a != b, m, n, e - g, Nat.pos_of_ne_zero hm, Nat.pos_of_ne_zero hn, ?_, ?_⟩
      · simp only [FpVal.rat, zpow_sub₀ (two_ne_zero' Rat)]
        cases a <;> cases b <;> simp <;> ring
      · simp only [State.fpDiv, if_neg hm, if_neg hn]
    case fma =>
      rw [← hproduct] at h ⊢
      exact s.fpAdd_rounds f (x := .fin (a != b) (m * n) (e + g)) rfl hz h
  case delivers =>
    intro r c toInfinity
    have hc : c = _ := State.rounded_of_mode hmode f sign n d e
    by_cases hover : FpFmt.infBits f ≤ r.1
    case pos =>
      rw [if_pos hover] at hc
      have hbits : c.bits = FpFmt.overflowBits f mode sign := by rw [hc]
      refine ⟨by rw [hc], by rw [hc], fun h => absurd hover (not_le.2 h), fun _ => ⟨by rw [hc], by rw [hc], by rw [hc], ?_⟩⟩
      rw [hbits]
      cases mode <;> cases sign <;> simp [toInfinity, FpFmt.overflowBits]
    case neg =>
      rw [if_neg hover] at hc
      refine ⟨by rw [hc], by rw [hc], fun _ => ⟨by rw [hc], by rw [hc], ?_, ?_⟩, fun h => absurd h hover⟩
      · rw [hc]
        exact (Bool.not_eq_true' _).to_iff
      · rw [hc]
        exact tiny_iff f hn hd e

end Sys2Proof.Machine

/-! PROOFS about the results that round nothing: invalid operations, infinities, zeros, NaNs (45_floating_point.md R312 to
R330, 46_fused_multiply.md R353). -/
namespace Sys2Proof.Machine

/-! ## Kinds of values -/

/-- The sign of a value. -/
def FpVal.sign (x : FpVal) : Bool :=
  match x with
  | .nan a _ _ => a
  | .inf a => a
  | .fin a _ _ => a

/-- A finite value that is zero. -/
def FpVal.IsZero (x : FpVal) : Prop := FpVal.isFinite x = true ∧ FpVal.rat x = 0

/-- A finite value that is not zero. -/
def FpVal.IsNonzero (x : FpVal) : Prop := FpVal.isFinite x = true ∧ FpVal.rat x ≠ 0

/-- An infinity. -/
def FpVal.IsInf (x : FpVal) : Prop := ∃ a, x = .inf a

/-- The product of an infinity and a zero is invalid (R318). -/
def BadProduct (x y : FpVal) : Prop := (x.IsInf ∧ y.IsZero) ∨ (x.IsZero ∧ y.IsInf)

/-- The product is an infinity (R318). -/
def InfProduct (x y : FpVal) : Prop := (x.IsInf ∧ (y.IsInf ∨ y.IsNonzero)) ∨ (x.IsNonzero ∧ y.IsInf)

section
variable {a b q : Bool} {m r : Nat} {e : Int}

@[simp] theorem isNan_nan : FpVal.isNan (.nan a q r) = true := rfl
@[simp] theorem isNan_inf : FpVal.isNan (.inf a) = false := rfl
@[simp] theorem isNan_fin : FpVal.isNan (.fin a m e) = false := rfl
@[simp] theorem isFinite_nan : FpVal.isFinite (.nan a q r) = false := rfl
@[simp] theorem isFinite_inf : FpVal.isFinite (.inf a) = false := rfl
@[simp] theorem isFinite_fin : FpVal.isFinite (.fin a m e) = true := rfl
@[simp] theorem sign_inf : FpVal.sign (.inf a) = a := rfl
@[simp] theorem sign_fin : FpVal.sign (.fin a m e) = a := rfl
@[simp] theorem isInf_inf : FpVal.IsInf (.inf a) := ⟨a, rfl⟩
@[simp] theorem not_isInf_nan : ¬FpVal.IsInf (.nan a q r) := by simp [FpVal.IsInf]
@[simp] theorem not_isInf_fin : ¬FpVal.IsInf (.fin a m e) := by simp [FpVal.IsInf]
@[simp] theorem not_isZero_nan : ¬FpVal.IsZero (.nan a q r) := by simp [FpVal.IsZero]
@[simp] theorem not_isZero_inf : ¬FpVal.IsZero (.inf a) := by simp [FpVal.IsZero]
@[simp] theorem isZero_fin : FpVal.IsZero (.fin a m e) ↔ m = 0 := by simp [FpVal.IsZero, rat_fin_eq_zero_iff]
@[simp] theorem not_isNonzero_nan : ¬FpVal.IsNonzero (.nan a q r) := by simp [FpVal.IsNonzero]
@[simp] theorem not_isNonzero_inf : ¬FpVal.IsNonzero (.inf a) := by simp [FpVal.IsNonzero]
@[simp] theorem isNonzero_fin : FpVal.IsNonzero (.fin a m e) ↔ m ≠ 0 := by simp [FpVal.IsNonzero, rat_fin_eq_zero_iff]

end

/-! ## Products -/

theorem fpProduct_eq_none_iff (x y : FpVal) :
    fpProduct x y = none ↔ FpVal.isNan x = true ∨ FpVal.isNan y = true ∨ BadProduct x y := by
  rcases x with ⟨a, q, r⟩ | a | ⟨a, m, e⟩
  case nan => simp [fpProduct]
  case inf => rcases y with ⟨b, q, r⟩ | b | ⟨b, n, g⟩ <;> simp [fpProduct, BadProduct]
  case fin => rcases y with ⟨b, q, r⟩ | b | ⟨b, n, g⟩ <;> simp [fpProduct, BadProduct]

theorem fpProduct_eq_inf_iff (x y : FpVal) (c : Bool) :
    fpProduct x y = some (.inf c) ↔ InfProduct x y ∧ c = (x.sign != y.sign) := by
  rcases x with ⟨a, q, r⟩ | a | ⟨a, m, e⟩
  case nan => simp [fpProduct, InfProduct]
  case inf =>
    rcases y with ⟨b, q, r⟩ | b | ⟨b, n, g⟩
    · simp [fpProduct, InfProduct]
    · simp [fpProduct, InfProduct, eq_comm]
    · simp [fpProduct, InfProduct, eq_comm]
  case fin =>
    rcases y with ⟨b, q, r⟩ | b | ⟨b, n, g⟩
    · simp [fpProduct, InfProduct]
    · simp [fpProduct, InfProduct, eq_comm]
    · simp [fpProduct, InfProduct]

/-- The product of finite values has the product of the signs and of the numbers. -/
theorem fpProduct_of_finite {x y : FpVal} (hx : FpVal.isFinite x = true) (hy : FpVal.isFinite y = true) :
    ∃ m e, fpProduct x y = some (.fin (x.sign != y.sign) m e) ∧
      FpVal.rat (.fin (x.sign != y.sign) m e) = FpVal.rat x * FpVal.rat y := by
  obtain ⟨a, m, e, rfl⟩ := eq_fin_of_isFinite hx
  obtain ⟨b, n, g, rfl⟩ := eq_fin_of_isFinite hy
  exact ⟨_, _, rfl, rat_fin_product a b m n e g⟩

theorem fpProduct_ne_nan (x y : FpVal) (a q : Bool) (r : Nat) : fpProduct x y ≠ some (.nan a q r) := by
  rcases x with ⟨a, q, r⟩ | a | ⟨a, m, e⟩
  case nan => simp [fpProduct]
  case inf => rcases y with ⟨b, q, r⟩ | b | ⟨b, n, g⟩ <;> simp [fpProduct]
  case fin => rcases y with ⟨b, q, r⟩ | b | ⟨b, n, g⟩ <;> simp [fpProduct]

/-! ## Invalid operations -/

/-- The result is that of an invalid operation, and invalid, exactly under the condition (R314). -/
def FpFmt.InvalidWhen (f : FpFmt) (c : FpCalc) (condition : Prop) : Prop :=
  (c.invalid = true ↔ condition) ∧ (condition → c = { bits := FpFmt.infBits f + 2 ^ (f.fracBits - 1), invalid := true })

theorem FpFmt.InvalidWhen.of_invalid {f : FpFmt} {c : FpCalc} {p : Prop} (hc : c = FpFmt.invalidResult f) (hp : p) :
    FpFmt.InvalidWhen f c p := by
  subst hc
  exact ⟨⟨fun _ => hp, fun _ => rfl⟩, fun _ => rfl⟩

theorem FpFmt.InvalidWhen.of_valid {f : FpFmt} {c : FpCalc} {p : Prop} (hc : c.invalid = false) (hp : ¬p) :
    FpFmt.InvalidWhen f c p :=
  ⟨by simp [hc, hp], fun h => absurd h hp⟩

theorem FpFmt.InvalidWhen.congr {f : FpFmt} {c : FpCalc} {p p' : Prop} (h : FpFmt.InvalidWhen f c p) (hp : p ↔ p') :
    FpFmt.InvalidWhen f c p' := by
  rwa [propext hp] at h

/-- Rounding is neither invalid nor a division by zero. -/
theorem State.rounded_valid (s : State) (f : FpFmt) (sign : Bool) (n d : Nat) (x : Int) :
    (s.rounded f sign n d x).invalid = false ∧ (s.rounded f sign n d x).divZero = false := by
  unfold State.rounded
  split
  · exact ⟨rfl, rfl⟩
  · dsimp only
    split <;> exact ⟨rfl, rfl⟩

theorem State.fpAdd_invalidWhen (s : State) (f : FpFmt) (x y : FpVal) :
    FpFmt.InvalidWhen f (s.fpAdd f x y)
      (FpVal.isNan x = true ∨ FpVal.isNan y = true ∨ (x.IsInf ∧ y = .inf (!x.sign))) := by
  rcases x with ⟨a, q, r⟩ | a | ⟨a, m, e⟩
  case nan => exact .of_invalid rfl (.inl rfl)
  case inf =>
    rcases y with ⟨b, q, r⟩ | b | ⟨b, n, g⟩
    · exact .of_invalid rfl (.inr (.inl rfl))
    · by_cases h : a = b
      · exact .of_valid (by simp [State.fpAdd, h, FpFmt.infResult]) (by simp [h])
      · exact .of_invalid (by simp [State.fpAdd, h]) (by cases a <;> cases b <;> simp at h ⊢)
    · exact .of_valid rfl (by simp)
  case fin =>
    rcases y with ⟨b, q, r⟩ | b | ⟨b, n, g⟩
    · exact .of_invalid rfl (.inr (.inl rfl))
    · exact .of_valid rfl (by simp)
    · refine .of_valid ?_ (by simp)
      simp only [State.fpAdd]
      split
      exacts [rfl, (s.rounded_valid ..).1]

theorem State.fpDeliver_invalid_fin (s : State) (f : FpFmt) (a : Bool) (m : Nat) (e : Int) :
    (s.fpDeliver f (.fin a m e)).invalid = false := by
  rw [State.fpDeliver]
  split
  exacts [rfl, (s.rounded_valid ..).1]

theorem State.fpMul_invalidWhen (s : State) (f : FpFmt) (x y : FpVal) :
    FpFmt.InvalidWhen f (s.fpMul f x y) (FpVal.isNan x = true ∨ FpVal.isNan y = true ∨ BadProduct x y) := by
  rw [← fpProduct_eq_none_iff]
  rcases hp : fpProduct x y with _ | p
  · exact .of_invalid (by simp only [State.fpMul, hp]) rfl
  · refine .of_valid ?_ (by simp)
    simp only [State.fpMul, hp]
    rcases p with ⟨a, q, r⟩ | a | ⟨a, m, e⟩
    exacts [(fpProduct_ne_nan _ _ _ _ _ hp).elim, rfl, s.fpDeliver_invalid_fin ..]

/-- The two kinds of a product that is one, beside the invalid condition of the sum (R353). -/
theorem State.fpFma_invalidWhen (s : State) (f : FpFmt) (x y z : FpVal) :
    FpFmt.InvalidWhen f (s.fpFma f x y z) (FpVal.isNan x = true ∨ FpVal.isNan y = true ∨ FpVal.isNan z = true ∨
      BadProduct x y ∨ (InfProduct x y ∧ z = .inf (!(x.sign != y.sign)))) := by
  have hnone := fpProduct_eq_none_iff x y
  have hinf := fpProduct_eq_inf_iff x y
  rcases hp : fpProduct x y with _ | p
  · refine .of_invalid (by simp only [State.fpFma, hp]) ?_
    have := hnone.1 hp
    tauto
  · have hc : s.fpFma f x y z = s.fpAdd f p z := by simp only [State.fpFma, hp]
    have hsome : ¬(FpVal.isNan x = true ∨ FpVal.isNan y = true ∨ BadProduct x y) := fun h => by
      simp [hnone.2 h] at hp
    rw [hc]
    refine (s.fpAdd_invalidWhen f p z).congr ?_
    rcases p with ⟨a, q, r⟩ | a | ⟨a, m, e⟩
    case nan => exact (fpProduct_ne_nan _ _ _ _ _ hp).elim
    case inf =>
      obtain ⟨hprod, rfl⟩ := (hinf a).1 hp
      simp only [isNan_inf, isInf_inf, sign_inf]
      tauto
    case fin =>
      have hprod : ¬InfProduct x y := fun h => by simp [(hinf _).2 ⟨h, rfl⟩] at hp
      simp only [isNan_fin, not_isInf_fin]
      tauto

theorem State.fpDiv_invalidWhen (s : State) (f : FpFmt) (x y : FpVal) :
    FpFmt.InvalidWhen f (s.fpDiv f x y)
      (FpVal.isNan x = true ∨ FpVal.isNan y = true ∨ (x.IsZero ∧ y.IsZero) ∨ (x.IsInf ∧ y.IsInf)) := by
  rcases x with ⟨a, q, r⟩ | a | ⟨a, m, e⟩
  case nan => exact .of_invalid rfl (.inl rfl)
  case inf =>
    rcases y with ⟨b, q, r⟩ | b | ⟨b, n, g⟩
    · exact .of_invalid rfl (.inr (.inl rfl))
    · exact .of_invalid rfl (by simp)
    · exact .of_valid rfl (by simp)
  case fin =>
    rcases y with ⟨b, q, r⟩ | b | ⟨b, n, g⟩
    · exact .of_invalid rfl (.inr (.inl rfl))
    · exact .of_valid rfl (by simp)
    · by_cases hn : n = 0 <;> by_cases hm : m = 0
      · exact .of_invalid (by simp [State.fpDiv, hn, hm]) (by simp [hn, hm])
      · exact .of_valid (by simp [State.fpDiv, hn, hm, FpFmt.infResult]) (by simp [hm])
      · exact .of_valid (by simp [State.fpDiv, hn, hm, FpFmt.zeroResult]) (by simp [hn])
      · exact .of_valid (by simp [State.fpDiv, hn, hm, s.rounded_valid]) (by simp [hn])

theorem fpRem_invalidWhen (f : FpFmt) (x y : FpVal) :
    FpFmt.InvalidWhen f (fpRem f x y) (FpVal.isNan x = true ∨ FpVal.isNan y = true ∨ x.IsInf ∨ y.IsZero) := by
  rcases x with ⟨a, q, r⟩ | a | ⟨a, m, e⟩
  case nan => exact .of_invalid rfl (.inl rfl)
  case inf => exact .of_invalid (by rcases y with _ | _ | _ <;> rfl) (.inr (.inr (.inl ⟨a, rfl⟩)))
  case fin =>
    rcases y with ⟨b, q, r⟩ | b | ⟨b, n, g⟩
    · exact .of_invalid rfl (.inr (.inl rfl))
    · refine .of_valid ?_ (by simp)
      rw [fpRem]
      split <;> rfl
    · by_cases hn : n = 0
      · exact .of_invalid (if_pos hn) (by simp [hn])
      · refine .of_valid ?_ (by simp [hn])
        simp only [fpRem, if_neg hn]
        split
        · rfl
        · split <;> rfl

theorem State.fpSqrt_invalidWhen (s : State) (f : FpFmt) (x : FpVal) :
    FpFmt.InvalidWhen f (s.fpSqrt f x)
      (FpVal.isSignaling x = true ∨ x = .inf true ∨ (FpVal.isFinite x = true ∧ FpVal.rat x < 0)) := by
  rcases x with ⟨a, q, r⟩ | a | ⟨a, m, e⟩
  case nan =>
    cases q
    · exact .of_invalid rfl (.inl rfl)
    · exact .of_valid rfl (by simp [FpVal.isSignaling])
  case inf =>
    cases a
    · exact .of_valid rfl (by simp [FpVal.isSignaling])
    · exact .of_invalid rfl (.inr (.inl rfl))
  case fin =>
    simp only [rat_fin_neg_iff, isFinite_fin]
    by_cases hm : m = 0
    · exact .of_valid (by simp [State.fpSqrt, hm, FpFmt.zeroResult]) (by simp [FpVal.isSignaling, hm])
    · cases a
      · refine .of_valid ?_ (by simp [FpVal.isSignaling])
        simp only [State.fpSqrt, if_neg hm]
        exact (s.rounded_valid ..).1
      · exact .of_invalid (by simp [State.fpSqrt, hm]) (by simp [hm])

/-- Rounding to an integer is valid but on a signaling NaN, and never divides. -/
theorem State.fpRoundInt_valid (s : State) (f : FpFmt) (a : Bool) (m : Nat) (e : Int) :
    (s.fpRoundInt f (.fin a m e)).invalid = false := by
  simp only [State.fpRoundInt]
  split
  · rfl
  · split
    · rfl
    · split
      · rfl
      · split <;> rfl

theorem State.fpRoundInt_invalidWhen (s : State) (f : FpFmt) (x : FpVal) :
    FpFmt.InvalidWhen f (s.fpRoundInt f x) (FpVal.isSignaling x = true) := by
  rcases x with ⟨a, q, r⟩ | a | ⟨a, m, e⟩
  case nan =>
    cases q
    · exact .of_invalid rfl rfl
    · exact .of_valid rfl (by simp [FpVal.isSignaling])
  case inf => exact .of_valid rfl (by simp [FpVal.isSignaling])
  case fin => exact .of_valid (s.fpRoundInt_valid ..) (by simp [FpVal.isSignaling])

/-! ## Sums with an infinity and exact zero sums -/

/-- The sum of a value and an infinity, and of finite values that cancel (R316). -/
theorem State.fpAdd_special (s : State) (f : FpFmt) (p q : FpVal) :
    (∀ a, p = .inf a → FpVal.isFinite q = true ∨ q = .inf a → s.fpAdd f p q = FpFmt.infResult f a) ∧
    (FpVal.isFinite p = true → ∀ b, q = .inf b → s.fpAdd f p q = FpFmt.infResult f b) ∧
    (FpVal.isFinite p = true → FpVal.isFinite q = true → FpVal.rat p + FpVal.rat q = 0 →
      ∃ b, s.fpAdd f p q = FpFmt.zeroResult f b ∧ (p.sign = q.sign → b = p.sign) ∧
        (p.sign ≠ q.sign → s.rounding = some .nearestEven → b = false)) := by
  refine ⟨fun a hp hq => ?_, fun hp b hq => ?_, fun hp hq hsum => ?_⟩
  · subst hp
    rcases hq with hq | rfl
    · obtain ⟨b, n, g, rfl⟩ := eq_fin_of_isFinite hq
      rfl
    · exact if_pos rfl
  · subst hq
    obtain ⟨a, m, e, rfl⟩ := eq_fin_of_isFinite hp
    rfl
  · obtain ⟨a, m, e, rfl⟩ := eq_fin_of_isFinite hp
    obtain ⟨b, n, g, rfl⟩ := eq_fin_of_isFinite hq
    have hpos : (2 : Rat) ^ (min e g) ≠ 0 := by positivity
    have hzero : scaled a m e (min e g) + scaled b n g (min e g) = 0 := by
      rw [← scaled_add_scaled a b m n e g, mul_eq_zero, or_iff_left hpos] at hsum
      exact_mod_cast hsum
    refine ⟨if a = b then a else s.zeroSumSign, ?_, fun h => ?_, fun h hmode => ?_⟩
    · simp only [State.fpAdd, hzero, if_true]
    · exact if_pos h
    · have hne : a ≠ b := h
      rw [if_neg hne, State.zeroSumSign, hmode]

/-! ## Results that are no NaN -/

/-- The rule that a NaN result is invalid leaves the result as it is. -/
def FpFmt.Settled (f : FpFmt) (c : FpCalc) : Prop := FpFmt.nanInvalid f c = c

theorem FpFmt.Settled.of_not_nan {f : FpFmt} {c : FpCalc} (h : FpVal.isNan (FpFmt.unpack f c.bits) = false) :
    FpFmt.Settled f c := if_neg (by simp [h])

theorem FpFmt.Settled.invalidResult {f : FpFmt} (h : 1 ≤ f.fracBits) : FpFmt.Settled f (FpFmt.invalidResult f) :=
  if_pos (by rw [FpFmt.invalidResult, unpack_quietNan h]; rfl)

theorem isNan_of_isFinite {x : FpVal} (h : FpVal.isFinite x = true) : FpVal.isNan x = false := by
  obtain ⟨a, m, e, rfl⟩ := eq_fin_of_isFinite h
  rfl

theorem infBits_pos {f : FpFmt} (h : 1 ≤ f.expBits) : 0 < FpFmt.infBits f := by
  have : 2 ^ 1 ≤ 2 ^ f.expBits := Nat.pow_le_pow_right (by decide) h
  exact Nat.mul_pos (by omega) (Nat.two_pow_pos _)

theorem FpFmt.Settled.inf {f : FpFmt} {c : FpCalc} (sign : Bool) (h : c.bits = FpFmt.signed f sign (FpFmt.infBits f)) :
    FpFmt.Settled f c := .of_not_nan (by rw [h, unpack_signed_infBits]; rfl)

theorem FpFmt.Settled.finite {f : FpFmt} {c : FpCalc} (sign : Bool) {mag : Nat} (hlt : mag < FpFmt.infBits f)
    (h : c.bits = FpFmt.signed f sign mag) : FpFmt.Settled f c :=
  .of_not_nan (by rw [h]; exact isNan_of_isFinite (unpack_signed_of_lt sign hlt).1)

/-- An overflow delivers infinity or the largest finite number (R314). -/
theorem overflowBits_eq (f : FpFmt) (mode : Rounding) (sign : Bool) :
    FpFmt.overflowBits f mode sign = FpFmt.signed f sign (FpFmt.infBits f) ∨
    FpFmt.overflowBits f mode sign = FpFmt.signed f sign (FpFmt.infBits f - 1) :=
  (ite_eq_or_eq _ _ _).imp (congrArg _) (congrArg _)

theorem State.rounded_settled {s : State} {mode : Rounding} (hmode : s.rounding = some mode) {f : FpFmt}
    (he : 1 ≤ f.expBits) (sign : Bool) (n d : Nat) (x : Int) : FpFmt.Settled f (s.rounded f sign n d x) := by
  have hpos := infBits_pos he
  rw [State.rounded_of_mode hmode]
  by_cases h : FpFmt.infBits f ≤ (FpFmt.roundMag f mode sign n d x).1
  · rw [if_pos h]
    rcases overflowBits_eq f mode sign with hbits | hbits
    exacts [.inf sign hbits, .finite sign (by omega) hbits]
  · rw [if_neg h]
    exact .finite sign (not_le.1 h) rfl

section
variable {s : State} {mode : Rounding} (hmode : s.rounding = some mode) {f : FpFmt} (he : 1 ≤ f.expBits)
  (hf : 1 ≤ f.fracBits)
include hmode he hf

theorem State.fpAdd_settled (x y : FpVal) : FpFmt.Settled f (s.fpAdd f x y) := by
  rcases x with ⟨a, q, r⟩ | a | ⟨a, m, e⟩
  case nan => exact .invalidResult hf
  case inf =>
    rcases y with ⟨b, q, r⟩ | b | ⟨b, n, g⟩
    · exact .invalidResult hf
    · simp only [State.fpAdd]
      split
      exacts [.inf a rfl, .invalidResult hf]
    · exact .inf a rfl
  case fin =>
    rcases y with ⟨b, q, r⟩ | b | ⟨b, n, g⟩
    · exact .invalidResult hf
    · exact .inf b rfl
    · simp only [State.fpAdd]
      split
      exacts [.finite _ (infBits_pos he) rfl, State.rounded_settled hmode he ..]

theorem State.fpMul_settled (x y : FpVal) : FpFmt.Settled f (s.fpMul f x y) := by
  simp only [State.fpMul]
  split
  · exact .invalidResult hf
  · next p _ =>
    rcases p with ⟨a, q, r⟩ | a | ⟨a, m, e⟩
    · exact .invalidResult hf
    · exact .inf a rfl
    · simp only [State.fpDeliver]
      split
      exacts [.finite a (infBits_pos he) rfl, State.rounded_settled hmode he ..]

theorem State.fpFma_settled (x y z : FpVal) : FpFmt.Settled f (s.fpFma f x y z) := by
  simp only [State.fpFma]
  split
  exacts [.invalidResult hf, State.fpAdd_settled hmode he hf ..]

theorem State.fpDiv_settled (x y : FpVal) : FpFmt.Settled f (s.fpDiv f x y) := by
  rcases x with ⟨a, q, r⟩ | a | ⟨a, m, e⟩
  case nan => exact .invalidResult hf
  case inf =>
    rcases y with ⟨b, q, r⟩ | b | ⟨b, n, g⟩
    exacts [.invalidResult hf, .invalidResult hf, .inf _ rfl]
  case fin =>
    rcases y with ⟨b, q, r⟩ | b | ⟨b, n, g⟩
    · exact .invalidResult hf
    · exact .finite _ (infBits_pos he) rfl
    · simp only [State.fpDiv]
      split
      · split
        exacts [.invalidResult hf, .inf (a != b) rfl]
      · split
        exacts [.finite _ (infBits_pos he) rfl, State.rounded_settled hmode he ..]

end

/-- A result is a NaN by its fields (R312). -/
theorem isNan_unpack_iff (f : FpFmt) (bits : Nat) :
    FpVal.isNan (FpFmt.unpack f bits) = true ↔
      bits / 2 ^ f.fracBits % 2 ^ f.expBits = 2 ^ f.expBits - 1 ∧ bits % 2 ^ f.fracBits ≠ 0 := by
  simp only [FpFmt.unpack]
  split
  · next h =>
    split
    · next h0 => simp [h0]
    · next h0 => simp [h, h0]
  · next h => split <;> simp [h]

/-! ## Division -/

/-- What a division that rounds nothing delivers (R319). -/
theorem State.fpDiv_special (s : State) (f : FpFmt) (x y : FpVal) :
    ((s.fpDiv f x y).divZero = true ↔ x.IsNonzero ∧ y.IsZero) ∧
    (x.IsNonzero → y.IsZero → s.fpDiv f x y = { FpFmt.infResult f (x.sign != y.sign) with divZero := true }) ∧
    (x.IsInf → FpVal.isFinite y = true → s.fpDiv f x y = FpFmt.infResult f (x.sign != y.sign)) ∧
    (FpVal.isFinite x = true → y.IsInf → s.fpDiv f x y = FpFmt.zeroResult f (x.sign != y.sign)) ∧
    (x.IsZero → y.IsNonzero → s.fpDiv f x y = FpFmt.zeroResult f (x.sign != y.sign)) := by
  rcases x with ⟨a, q, r⟩ | a | ⟨a, m, e⟩
  case nan => simp [State.fpDiv, FpFmt.invalidResult]
  case inf =>
    rcases y with ⟨b, q, r⟩ | b | ⟨b, n, g⟩ <;> simp [State.fpDiv, FpFmt.invalidResult, FpFmt.infResult]
  case fin =>
    rcases y with ⟨b, q, r⟩ | b | ⟨b, n, g⟩
    · simp [State.fpDiv, FpFmt.invalidResult]
    · simp [State.fpDiv, FpFmt.zeroResult]
    · by_cases hn : n = 0 <;> by_cases hm : m = 0 <;>
        simp [State.fpDiv, hn, hm, FpFmt.invalidResult, FpFmt.infResult, FpFmt.zeroResult, s.rounded_valid]

/-- Settles O41. -/
theorem fpSpecialResults : Obligations.FpSpecialResults := by
  intro s f x y z finite zero nonzero nan inf sign infinity zeroOf invalid opposite infProduct badProduct negative sum
  have hsign (v : FpVal) : v.sign = sign v := by cases v <;> rfl
  have hneg : (x.sign != y.sign) = negative := by rw [hsign, hsign]
  have hproduct := fpProduct_of_finite (x := x) (y := y)
  have hinfProduct := fpProduct_eq_inf_iff x y
  obtain ⟨hdivZero, hnonzeroZero, hinfFinite, hfiniteInf, hzeroNonzero⟩ := s.fpDiv_special f x y
  rw [hneg] at hnonzeroZero hinfFinite hfiniteInf hzeroNonzero
  refine ⟨?addInvalid, ?addSum, s.fpMul_invalidWhen f x y, fun h => ?mulInf, fun hx hy h => ?mulZero, ?fmaInvalid, ?fmaSum,
    s.fpDiv_invalidWhen f x y, hdivZero, hnonzeroZero, hinfFinite, hfiniteInf, hzeroNonzero, fpRem_invalidWhen f x y,
    s.fpSqrt_invalidWhen f x, ?sqrtInf, s.fpRoundInt_invalidWhen f x, ?roundInf, ?nanPasses,
    fun he hf => ⟨fun c => ⟨fun h => ?isNan, fun h => ?isNotNan⟩, fun mode hmode => ?settled⟩⟩
  case addInvalid =>
    have h := s.fpAdd_invalidWhen f x y
    rw [hsign] at h
    exact h
  case addSum =>
    obtain ⟨h₁, h₂, h₃⟩ := s.fpAdd_special f x y
    rw [hsign, hsign] at h₃
    refine ⟨fun ⟨a, ha⟩ hq => ?_, h₂, h₃⟩
    have hxa : sign x = a := by rw [ha]
    rw [hxa] at hq ⊢
    exact h₁ a ha hq
  case mulInf =>
    have hp := (hinfProduct _).2 ⟨h, rfl⟩
    rw [hneg] at hp
    simp only [State.fpMul, hp]
    rfl
  case mulZero =>
    obtain ⟨m, e, hp, hrat⟩ := hproduct hx hy
    rw [h, rat_fin_eq_zero_iff] at hrat
    rw [hneg, hrat] at hp
    simp only [State.fpMul, hp]
    rfl
  case fmaInvalid =>
    have h := s.fpFma_invalidWhen f x y z
    rw [hneg] at h
    exact h
  case fmaSum =>
    refine ⟨fun h hq => ?_, fun ⟨hx, hy⟩ b hq => ?_, fun ⟨hx, hy⟩ hq h => ?_⟩
    · have hp := (hinfProduct _).2 ⟨h, rfl⟩
      rw [hneg] at hp
      have hc : s.fpFma f x y z = s.fpAdd f (.inf negative) z := by simp only [State.fpFma, hp]
      exact hc.trans ((s.fpAdd_special f (.inf negative) z).1 _ rfl hq)
    · obtain ⟨m, e, hp, -⟩ := hproduct hx hy
      have hc : s.fpFma f x y z = s.fpAdd f (.fin (x.sign != y.sign) m e) z := by simp only [State.fpFma, hp]
      exact hc.trans ((s.fpAdd_special f _ z).2.1 rfl b hq)
    · obtain ⟨m, e, hp, hrat⟩ := hproduct hx hy
      rw [hneg] at hp hrat
      have hc : s.fpFma f x y z = s.fpAdd f (.fin negative m e) z := by simp only [State.fpFma, hp]
      rw [hc, ← hsign]
      exact (s.fpAdd_special f (.fin negative m e) z).2.2 rfl hq (by rw [hrat]; exact h)
  case sqrtInf =>
    rintro rfl
    rfl
  case roundInf =>
    rintro a rfl
    rfl
  case nanPasses =>
    rintro a frac rfl c hc
    rcases List.mem_pair.1 hc with rfl | rfl <;> rfl
  case isNan => exact if_pos ((isNan_unpack_iff f c.bits).2 h)
  case isNotNan => exact if_neg fun hn => h ((isNan_unpack_iff f c.bits).1 hn)
  case settled =>
    simp only [List.forall_mem_cons]
    exact ⟨State.fpAdd_settled hmode he hf x y, State.fpMul_settled hmode he hf x y, State.fpDiv_settled hmode he hf x y,
      State.fpFma_settled hmode he hf x y z, by simp⟩

end Sys2Proof.Machine

/-! PROOFS about the numbers of a format: their order, which are held exactly, and the conversions between formats
(45_floating_point.md R312, R327 to R330). -/
namespace Sys2Proof.Machine

/-! ## The order of patterns -/

/-- Every pattern is one of a mantissa of the format. -/
theorem exists_holds_eq_pattern (f : FpFmt) (p : Nat) :
    ∃ m e, FpFmt.Holds f m e ∧ m < 2 ^ (f.fracBits + 1) ∧ FpFmt.pattern f m e = p := by
  have hpos : 0 < 2 ^ f.fracBits := Nat.two_pow_pos _
  have hdouble : 2 ^ (f.fracBits + 1) = 2 ^ f.fracBits + 2 ^ f.fracBits := by rw [pow_succ, Nat.mul_two]
  have hdm := Nat.div_add_mod p (2 ^ f.fracBits)
  have hmod := Nat.mod_lt p hpos
  rcases hE : p / 2 ^ f.fracBits with _ | k
  · rw [hE, Nat.mul_zero, Nat.zero_add] at hdm
    refine ⟨p, FpFmt.minQuantum f, ⟨le_refl _, by omega, .inl rfl⟩, by omega, ?_⟩
    rw [FpFmt.pattern, sub_self, Int.toNat_zero, Nat.zero_mul, Nat.zero_add]
  · rw [hE, Nat.mul_succ] at hdm
    refine ⟨2 ^ f.fracBits + p % 2 ^ f.fracBits, k + FpFmt.minQuantum f, ⟨by omega, by omega, .inr (by omega)⟩, by omega, ?_⟩
    rw [FpFmt.pattern, Int.add_sub_cancel, Int.toNat_natCast, Nat.mul_comm]
    omega

theorem magnitude_strictMono (f : FpFmt) : StrictMono (FpFmt.magnitude f) := by
  refine strictMono_nat_of_lt_succ fun p => ?_
  obtain ⟨m, e, h, hm, rfl⟩ := exists_holds_eq_pattern f p
  have hnext : FpFmt.Holds f (m + 1) e := ⟨h.quantum, hm, h.normal.imp_right fun h => Nat.le_succ_of_le h⟩
  have hsucc : FpFmt.magnitude f (FpFmt.pattern f m e + 1) = _ := hnext.magnitude_pattern
  rw [h.magnitude_pattern, hsucc]
  have : (0 : Rat) < 2 ^ e := by positivity
  push_cast
  linarith

theorem magnitude_zero (f : FpFmt) : FpFmt.magnitude f 0 = 0 := by
  simp [FpFmt.magnitude]

/-- The number the pattern of infinity would stand for (R312). -/
theorem magnitude_infBits {f : FpFmt} (h : 1 ≤ f.expBits) :
    FpFmt.magnitude f (FpFmt.infBits f) = (2 : Rat) ^ ((FpFmt.bias f : Int) + 1) := by
  obtain ⟨c, hc⟩ : ∃ c, 2 ^ f.expBits = c + 2 ∧ 2 ^ (f.expBits - 1) * 2 = c + 2 := by
    have hpow : 2 ^ (f.expBits - 1) * 2 = 2 ^ f.expBits := by rw [← pow_succ, Nat.sub_add_cancel h]
    have : 1 ≤ 2 ^ (f.expBits - 1) := Nat.one_le_two_pow
    exact ⟨2 ^ f.expBits - 2, by omega, by omega⟩
  have hpattern : FpFmt.infBits f = FpFmt.pattern f (2 ^ f.fracBits) (c + FpFmt.minQuantum f) := by
    rw [FpFmt.infBits, FpFmt.pattern, hc.1, Int.add_sub_cancel, Int.toNat_natCast, ← Nat.succ_mul]
    rfl
  have hholds : FpFmt.Holds f (2 ^ f.fracBits) (c + FpFmt.minQuantum f) :=
    ⟨by omega, Nat.pow_le_pow_right (by decide) (Nat.le_succ _), .inr (le_refl _)⟩
  rw [hpattern, hholds.magnitude_pattern, Nat.cast_pow, Nat.cast_two, ← zpow_natCast, ← zpow_add₀ two_ne_zero]
  congr 1
  have hbias : ((FpFmt.bias f : Nat) : Int) = (2 ^ (f.expBits - 1) : Nat) - 1 := by
    have : 1 ≤ 2 ^ (f.expBits - 1) := Nat.one_le_two_pow
    rw [FpFmt.bias]
    omega
  rw [FpFmt.minQuantum]
  omega

/-- A number with at most `fracBits + 1` bits from the smallest quantum on is held exactly. -/
theorem exists_magnitude_eq {f : FpFmt} {m : Nat} {e : Int} (hm : m < 2 ^ (f.fracBits + 1)) (he : FpFmt.minQuantum f ≤ e) :
    ∃ p, FpFmt.magnitude f p = (m : Rat) * 2 ^ e := by
  obtain ⟨k, hk⟩ : ∃ k : Nat, e = FpFmt.minQuantum f + k := ⟨(e - FpFmt.minQuantum f).toNat, by omega⟩
  induction k generalizing m e with
  | zero => exact ⟨_, FpFmt.Holds.magnitude_pattern ⟨he, hm.le, .inl (by omega)⟩⟩
  | succ k ih =>
    by_cases hnormal : 2 ^ f.fracBits ≤ m
    case pos => exact ⟨_, FpFmt.Holds.magnitude_pattern ⟨he, hm.le, .inr hnormal⟩⟩
    case neg =>
      obtain ⟨p, hp⟩ := ih (m := 2 * m) (e := e - 1) (by rw [pow_succ]; omega) (by omega) (by push_cast at hk; omega)
      refine ⟨p, hp.trans ?_⟩
      rw [zpow_sub₀ two_ne_zero]
      push_cast
      ring

/-- A number of the format is not changed by rounding (R314). -/
theorem roundMag_of_magnitude {f : FpFmt} (hf : 1 ≤ f.fracBits) (mode : Rounding) (sign : Bool) {n d p : Nat} {x : Int}
    (hn : 0 < n) (hd : 0 < d) (h : (n : Rat) / d * 2 ^ x = FpFmt.magnitude f p) :
    FpFmt.roundMag f mode sign n d x = (p, true) := by
  obtain ⟨hlo, hhi, hexact, hr, -, -⟩ := fpRounding f mode sign n d x hf hn hd
  rw [h] at hlo hhi
  have hp : (FpFmt.roundMag f .toZero sign n d x).1 = p := by
    have h₁ := (magnitude_strictMono f).le_iff_le.1 hlo
    have h₂ := (magnitude_strictMono f).lt_iff_lt.1 hhi
    omega
  rw [hp] at hexact hr
  exact Prod.ext (hr h) (hexact.2 h)

/-- A positive number of the format as an exact result (R320, R328). -/
theorem exactResult_of_magnitude {f : FpFmt} (hf : 1 ≤ f.fracBits) (sign : Bool) {n p : Nat} {x : Int} (hn : 0 < n)
    (h : (n : Rat) * 2 ^ x = FpFmt.magnitude f p) :
    FpFmt.exactResult f sign n x = { bits := FpFmt.signed f sign p, tiny := FpFmt.tiny f n 1 x } := by
  have hr := roundMag_of_magnitude hf .toZero sign hn Nat.one_pos (by rw [Nat.cast_one, div_one, h] : _ = FpFmt.magnitude f p)
  rw [FpFmt.exactResult, hr]

/-- A finite value is its sign and the magnitude of its pattern. -/
theorem rat_eq_magnitude {f : FpFmt} {bits m : Nat} {sign : Bool} {e : Int} (h : FpFmt.unpack f bits = .fin sign m e) :
    ∃ p, p < FpFmt.infBits f ∧ FpFmt.magnitude f p = (m : Rat) * 2 ^ e := by
  obtain ⟨-, -, hholds, hlt, -⟩ := unpack_fin h
  exact ⟨_, hlt, hholds.magnitude_pattern⟩

/-! ## NaNs -/

/-- What a NaN unpacked from a format is. -/
theorem unpack_nan {f : FpFmt} {bits frac : Nat} {sign quiet : Bool} (h : FpFmt.unpack f bits = .nan sign quiet frac) :
    frac ≠ 0 ∧ frac < 2 ^ f.fracBits ∧ quiet = frac.testBit (f.fracBits - 1) := by
  have hlt := Nat.mod_lt bits (Nat.two_pow_pos f.fracBits)
  simp only [FpFmt.unpack] at h
  split at h
  · split at h
    · cases h
    · next hne =>
      cases h
      exact ⟨hne, hlt, rfl⟩
  · split at h <;> cases h

theorem nanFraction_of_le {src dst : FpFmt} (h : src.fracBits ≤ dst.fracBits) (frac : Nat) :
    nanFraction src dst frac = frac * 2 ^ (dst.fracBits - src.fracBits) := by
  obtain ⟨k, hk⟩ := Nat.exists_eq_add_of_le h
  rw [nanFraction, hk, Nat.add_sub_cancel_left, pow_add, Nat.mul_left_comm, Nat.mul_div_cancel_left _ (Nat.two_pow_pos _)]

theorem nanFraction_of_ge {src dst : FpFmt} (h : dst.fracBits ≤ src.fracBits) (frac : Nat) :
    nanFraction src dst frac = frac / 2 ^ (src.fracBits - dst.fracBits) := by
  obtain ⟨k, hk⟩ := Nat.exists_eq_add_of_le h
  rw [nanFraction, hk, Nat.add_sub_cancel_left, pow_add, Nat.mul_comm, Nat.mul_div_mul_left _ _ (Nat.two_pow_pos _)]

/-- A quiet NaN in another format: a quiet NaN with the converted fraction (R328, R329). -/
theorem unpack_nanResult {src dst : FpFmt} {frac : Nat} (hs : 1 ≤ src.fracBits) (hd : 1 ≤ dst.fracBits)
    (hlt : frac < 2 ^ src.fracBits) (hquiet : frac.testBit (src.fracBits - 1) = true) (sign : Bool) :
    FpFmt.unpack dst (FpFmt.nanResult dst sign (nanFraction src dst frac)).bits =
      .nan sign true (nanFraction src dst frac) := by
  have hbit : (nanFraction src dst frac).testBit (dst.fracBits - 1) = true := by
    rcases le_total src.fracBits dst.fracBits with h | h
    · rw [nanFraction_of_le h, Nat.testBit_mul_two_pow, decide_eq_true (by omega), Bool.true_and,
        show dst.fracBits - 1 - (dst.fracBits - src.fracBits) = src.fracBits - 1 by omega, hquiet]
    · rw [nanFraction_of_ge h, Nat.testBit_div_two_pow,
        show dst.fracBits - 1 + (src.fracBits - dst.fracBits) = src.fracBits - 1 by omega, hquiet]
  have hbound : nanFraction src dst frac < 2 ^ dst.fracBits := by
    rw [nanFraction]
    refine Nat.div_lt_of_lt_mul ?_
    exact Nat.mul_lt_mul_of_pos_right hlt (Nat.two_pow_pos _)
  have hne : nanFraction src dst frac ≠ 0 := fun h0 => by simp [h0] at hbit
  rw [FpFmt.nanResult, unpack_signed_nan sign hne hbound, hbit]

/-! ## Conversions -/

/-- A format that holds another one has its exponents and its quanta (R328). -/
theorem fits_bounds {src dst : FpFmt} (h : FpFmt.fits src dst = true) :
    FpFmt.bias src ≤ FpFmt.bias dst ∧ FpFmt.minQuantum dst ≤ FpFmt.minQuantum src ∧ src.fracBits ≤ dst.fracBits ∧
      src.expBits ≤ dst.expBits := by
  obtain ⟨hexp, hfrac⟩ := of_decide_eq_true h
  have hbias : FpFmt.bias src ≤ FpFmt.bias dst :=
    Nat.sub_le_sub_right (Nat.pow_le_pow_right (by decide) (Nat.sub_le_sub_right hexp 1)) 1
  exact ⟨hbias, by rw [FpFmt.minQuantum, FpFmt.minQuantum]; omega, hfrac, hexp⟩

/-- A finite number of a format is one of a format that holds it. -/
theorem exists_magnitude_of_fits {src dst : FpFmt} {bits m : Nat} {sign : Bool} {e : Int}
    (hfits : FpFmt.fits src dst = true) (h : FpFmt.unpack src bits = .fin sign m e) :
    ∃ p, p < FpFmt.infBits dst ∧ FpFmt.magnitude dst p = (m : Rat) * 2 ^ e := by
  obtain ⟨hbias, hquantum, hfrac, hexp⟩ := fits_bounds hfits
  obtain ⟨-, hm, hholds, hlt, he⟩ := unpack_fin h
  obtain ⟨p, hp⟩ := exists_magnitude_eq (f := dst) (hm.trans_le (Nat.pow_le_pow_right (by decide) (by omega)))
    (hquantum.trans hholds.quantum)
  refine ⟨p, (magnitude_strictMono dst).lt_iff_lt.1 ?_, hp⟩
  calc FpFmt.magnitude dst p = FpFmt.magnitude src (FpFmt.pattern src m e) := by rw [hp, hholds.magnitude_pattern]
    _ < FpFmt.magnitude src (FpFmt.infBits src) := magnitude_strictMono src hlt
    _ = 2 ^ ((FpFmt.bias src : Int) + 1) := magnitude_infBits he
    _ ≤ 2 ^ ((FpFmt.bias dst : Int) + 1) := zpow_le_zpow_right₀ (by norm_num) (by omega)
    _ = FpFmt.magnitude dst (FpFmt.infBits dst) := (magnitude_infBits (he.trans hexp)).symm

/-- What a pattern below infinity, with a sign, is: finite, its number, its sign bit. -/
theorem unpack_signed_finite {f : FpFmt} {p : Nat} (sign : Bool) (h : p < FpFmt.infBits f) :
    FpVal.isFinite (FpFmt.unpack f (FpFmt.signed f sign p)) = true ∧
    FpVal.rat (FpFmt.unpack f (FpFmt.signed f sign p)) = (if sign then -1 else 1) * FpFmt.magnitude f p ∧
    FpFmt.signBit f (FpFmt.signed f sign p) = sign :=
  ⟨(unpack_signed_of_lt sign h).1, (unpack_signed_of_lt sign h).2, (signed_fields sign (lt_pow_of_lt_infBits h)).1⟩

/-- The extension of a finite value is exact (R328). -/
theorem fpExtend_fin {src dst : FpFmt} {bits m : Nat} {sign : Bool} {e : Int} (hd : 1 ≤ dst.fracBits)
    (hfits : FpFmt.fits src dst = true) (h : FpFmt.unpack src bits = .fin sign m e) :
    let c := fpExtend src dst (.fin sign m e)
    c.inexact = false ∧ c.overflow = false ∧ c.invalid = false ∧ ∃ p, p < FpFmt.infBits dst ∧
      c.bits = FpFmt.signed dst sign p ∧ FpFmt.magnitude dst p = (m : Rat) * 2 ^ e := by
  intro c
  obtain ⟨p, hlt, hp⟩ := exists_magnitude_of_fits hfits h
  by_cases hm : m = 0
  · have hc : c = FpFmt.zeroResult dst sign := if_pos hm
    rw [hc]
    refine ⟨rfl, rfl, rfl, 0, by omega, rfl, ?_⟩
    rw [magnitude_zero, hm, Nat.cast_zero, zero_mul]
  · have hc : c = _ := (if_neg hm).trans (exactResult_of_magnitude hd sign (Nat.pos_of_ne_zero hm) hp.symm)
    rw [hc]
    exact ⟨rfl, rfl, rfl, p, hlt, rfl, hp⟩

/-- Settles O38. -/
theorem fpFormatValues : Obligations.FpFormatValues := by
  intro s src dst hs hd he roundsOnce
  refine ⟨fun bits hfits => ?extend, fun bits hfrac => ?squeeze, fun i => ⟨fun hi => ?integer, fun hi => if_pos hi⟩⟩
  case extend =>
    intro x c y
    rcases hx : x with ⟨a, q, r⟩ | a | ⟨a, m, e⟩
    case nan =>
      obtain ⟨-, hlt, hquiet⟩ := unpack_nan hx
      have hc : c = fpExtend src dst (.nan a q r) := congrArg (fpExtend src dst) hx
      cases q
      · have hc' : c = FpFmt.invalidResult dst := hc
        simp [hc', FpFmt.invalidResult, FpVal.isSignaling]
      · have hc' : c = FpFmt.nanResult dst a (nanFraction src dst r) := hc
        have hy : y = .nan a true (r * 2 ^ (dst.fracBits - src.fracBits)) := by
          rw [← nanFraction_of_le (fits_bounds hfits).2.2.1, ← unpack_nanResult hs hd hlt hquiet.symm a, ← hc']
        rw [hy]
        simp [hc', FpFmt.nanResult, FpVal.isSignaling]
    case inf =>
      have hc : c = FpFmt.infResult dst a := congrArg (fpExtend src dst) hx
      have hy : y = .inf a := by
        change FpFmt.unpack dst c.bits = _
        rw [hc]
        exact unpack_signed_infBits dst a
      rw [hy]
      simp [hc, FpFmt.infResult, FpVal.isSignaling]
    case fin =>
      have hc : c = fpExtend src dst (.fin a m e) := congrArg (fpExtend src dst) hx
      obtain ⟨hinexact, hoverflow, hinvalid, p, hlt, hbits, hp⟩ := fpExtend_fin hd hfits hx
      rw [← hc] at hinexact hoverflow hinvalid hbits
      obtain ⟨hfinite, hrat, hsign⟩ := unpack_signed_finite a hlt
      rw [← hbits] at hfinite hrat hsign
      refine ⟨hinexact, hoverflow, hinvalid, fun _ => ⟨hfinite, ?_, hsign.trans (unpack_fin hx).1⟩, by simp, by simp,
        by simp [FpVal.isSignaling]⟩
      rw [FpVal.rat, mul_assoc, ← hp]
      exact hrat
  case squeeze =>
    intro x c y
    rcases hx : x with ⟨a, q, r⟩ | a | ⟨a, m, e⟩
    case nan =>
      obtain ⟨-, hlt, hquiet⟩ := unpack_nan hx
      have hc : c = s.fpSqueeze src dst (.nan a q r) := congrArg (s.fpSqueeze src dst) hx
      cases q
      · have hc' : c = FpFmt.invalidResult dst := hc
        simp [hc', FpFmt.invalidResult, FpVal.isSignaling]
      · have hc' : c = FpFmt.nanResult dst a (nanFraction src dst r) := hc
        have hy : y = .nan a true (r / 2 ^ (src.fracBits - dst.fracBits)) := by
          rw [← nanFraction_of_ge hfrac, ← unpack_nanResult hs hd hlt hquiet.symm a, ← hc']
        rw [hy]
        simp [hc', FpFmt.nanResult, FpVal.isSignaling]
    case inf =>
      have hc : c = FpFmt.infResult dst a := congrArg (s.fpSqueeze src dst) hx
      simp [hc, FpVal.isSignaling]
    case fin =>
      have hc : c = s.fpDeliver dst (.fin a m e) := congrArg (s.fpSqueeze src dst) hx
      refine ⟨fun _ h => ?_, fun b g hbg => ?_, by simp, by simp, by simp [FpVal.isSignaling]⟩
      · refine ⟨a, m, e, Nat.pos_of_ne_zero fun h0 => h (rat_fin_eq_zero_iff.2 h0), rfl, ?_⟩
        rw [hc, s.fpDeliver_rounds dst h]
      · cases hbg
        exact hc.trans (by simp [State.fpDeliver])
  case integer =>
    refine ⟨decide (i < 0), i.natAbs, 0, Int.natAbs_pos.2 hi, ?_, if_neg hi⟩
    rw [sign_mul_natAbs, zpow_zero, mul_one]

end Sys2Proof.Machine

/-! PROOFS about rounding to an integer (45_floating_point.md R325, R326). -/
namespace Sys2Proof.Machine

/-- The magnitude of a finite value. -/
theorem abs_rat_fin (sign : Bool) (m : Nat) (e : Int) : |FpVal.rat (.fin sign m e)| = (m : Rat) * 2 ^ e := by
  have h : (0 : Rat) ≤ m * 2 ^ e := by positivity
  cases sign
  · simp [FpVal.rat, abs_of_nonneg h]
  · simp [FpVal.rat, abs_of_nonneg h]

/-- The integer below a magnitude, and the rest, as the model divides. -/
theorem floor_toNat_eq (m : Nat) (e : Int) :
    let qr := scaledDiv m 1 e
    let v := (m : Rat) * 2 ^ e
    v.floor.toNat = qr.1 ∧ v = qr.1 + (qr.2.1 : Rat) / qr.2.2 ∧ qr.2.1 < qr.2.2 := by
  intro qr v
  obtain ⟨hlt, heq⟩ : qr.2.1 < qr.2.2 ∧ (m : Rat) / (1 : Nat) * 2 ^ e = qr.1 + (qr.2.1 : Rat) / qr.2.2 :=
    scaledDiv_spec m Nat.one_pos e
  have hv : v = qr.1 + (qr.2.1 : Rat) / qr.2.2 := by rw [← heq, Nat.cast_one, div_one]
  have hbot : (0 : Rat) < qr.2.2 := by exact_mod_cast (by omega : 0 < qr.2.2)
  have hrest : (qr.2.1 : Rat) / qr.2.2 < 1 := (div_lt_one hbot).2 (by exact_mod_cast hlt)
  have hrest' : 0 ≤ (qr.2.1 : Rat) / qr.2.2 := by positivity
  have hfloor : v.floor = (qr.1 : Int) := by
    refine (Int.floor_eq_iff (a := v)).2 ⟨?_, ?_⟩ <;> rw [hv] <;> push_cast <;> linarith
  exact ⟨by rw [hfloor, Int.toNat_natCast], hv, hlt⟩

/-- The integer an assigned mode gives, and whether it is exact (R325). -/
theorem roundInteger_eq {mode : Rounding} {sign : Bool} {m n : Nat} {e : Int} {v : Rat} (hve : v = (m : Rat) * 2 ^ e) :
    let lo := v.floor.toNat
    let up := Rounding.goesUp mode sign (decide (lo % 2 = 1)) lo v (lo + 1)
    (v = lo → n = lo) → (v ≠ lo → up → n = lo + 1) → (v ≠ lo → ¬up → n = lo) →
      roundInteger mode sign m e = (n, decide (v = lo)) := by
  intro lo up hexact hup hdown
  obtain ⟨hlo, hv, hlt⟩ : lo = (scaledDiv m 1 e).1 ∧ v = (scaledDiv m 1 e).1 +
      ((scaledDiv m 1 e).2.1 : Rat) / (scaledDiv m 1 e).2.2 ∧ (scaledDiv m 1 e).2.1 < (scaledDiv m 1 e).2.2 := by
    subst hve
    exact floor_toNat_eq m e
  rw [roundInteger]
  set qr := scaledDiv m 1 e
  have hbot : 0 < qr.2.2 := by omega
  have hbot' : (0 : Rat) < qr.2.2 := by exact_mod_cast hbot
  have hzero : v = lo ↔ qr.2.1 = 0 := by
    rw [hv, hlo, add_eq_left, div_eq_zero_iff, Nat.cast_eq_zero, or_iff_left hbot'.ne']
  have hflag : (qr.2.1 == 0) = decide (v = lo) := by
    rw [Bool.eq_iff_iff, beq_iff_eq, decide_eq_true_iff, hzero]
  rw [hflag, ← hlo]
  congr 1
  by_cases h : v = lo
  · rw [hzero.1 h, Rounding.up_zero _ _ _ hbot, hexact h]
    rfl
  · have hiff := Rounding.up_iff_goesUp mode sign lo (lo := lo) (v := v) (hi := lo + 1) (s := 1)
      (Nat.pos_of_ne_zero fun h0 => h (hzero.2 h0)) hbot one_pos (by rw [hv, hlo]; ring) (by rw [hv, hlo]; ring)
    by_cases hu : up
    · rw [hiff.2 hu, hup h hu]
      rfl
    · rw [Bool.eq_false_iff.2 fun hc => hu (hiff.1 hc), hdown h hu]
      rfl

/-- The rounded integer is a number of the format, as if the exponent range had no upper end. -/
theorem exists_magnitude_roundInteger {f : FpFmt} {bits m : Nat} {sign : Bool} {e : Int} (hf : 1 ≤ f.fracBits)
    (hx : FpFmt.unpack f bits = .fin sign m e) (mode : Rounding) :
    ∃ p, FpFmt.magnitude f p = ((roundInteger mode sign m e).1 : Rat) := by
  obtain ⟨-, hm, hholds, -, -⟩ := unpack_fin hx
  obtain ⟨-, hv, hlt⟩ := floor_toNat_eq m e
  by_cases hrest : (scaledDiv m 1 e).2.1 = 0
  case pos =>
    refine ⟨FpFmt.pattern f m e, ?_⟩
    rw [hholds.magnitude_pattern, hv, roundInteger]
    dsimp only
    rw [hrest, Rounding.up_zero _ _ _ (by omega)]
    simp
  case neg =>
    have hneg : e < 0 := by
      by_contra hc
      have h0 : (-e).toNat = 0 := by omega
      exact hrest (by simp [scaledDiv, h0, Nat.mod_one])
    obtain ⟨k, hk⟩ : ∃ k, (-e).toNat = k + 1 := ⟨(-e).toNat - 1, by omega⟩
    have hq : (scaledDiv m 1 e).1 < 2 ^ f.fracBits := by
      have h0 : e.toNat = 0 := by omega
      have : m < 2 ^ (k + 1) * 2 ^ f.fracBits :=
        hm.trans_le (by rw [pow_succ, pow_succ, Nat.mul_comm, Nat.mul_assoc]; exact Nat.le_mul_of_pos_left _ (Nat.two_pow_pos _))
      simp only [scaledDiv, h0, hk, pow_zero, Nat.mul_one, Nat.one_mul]
      exact Nat.div_lt_of_lt_mul this
    have hn : (roundInteger mode sign m e).1 < 2 ^ (f.fracBits + 1) := by
      have hup : (Rounding.up mode sign (scaledDiv m 1 e).1 (scaledDiv m 1 e).2.1 (scaledDiv m 1 e).2.2).toNat ≤ 1 :=
        Bool.toNat_le _
      have hpos : 0 < 2 ^ f.fracBits := Nat.two_pow_pos _
      have : 2 ≤ 2 ^ f.fracBits := Nat.pow_le_pow_right (n := 2) (by decide) hf
      simp only [roundInteger]
      rw [pow_succ]
      omega
    obtain ⟨p, hp⟩ := exists_magnitude_eq (f := f) (e := 0) hn (by rw [FpFmt.minQuantum]; omega)
    exact ⟨p, by rw [hp, zpow_zero, mul_one]⟩

/-- What FRND delivers for a finite operand in an assigned mode (R325). -/
theorem State.fpRoundInt_fin {s : State} {f : FpFmt} {mode : Rounding} {bits m : Nat} {sign : Bool} {e : Int}
    (hmode : s.rounding = some mode) (hf : 1 ≤ f.fracBits) (hx : FpFmt.unpack f bits = .fin sign m e) (hm : m ≠ 0) :
    let n := roundInteger mode sign m e
    let c := s.fpRoundInt f (.fin sign m e)
    ∃ p, FpFmt.magnitude f p = (n.1 : Rat) ∧
      c = if FpFmt.infBits f ≤ p then { bits := FpFmt.overflowBits f mode sign, overflow := true, inexact := true }
        else { bits := FpFmt.signed f sign p, inexact := !n.2 } := by
  intro n c
  obtain ⟨p, hp⟩ := exists_magnitude_roundInteger hf hx mode
  have hpos := infBits_pos (unpack_fin hx).2.2.2.2
  by_cases h0 : n.1 = 0
  case pos =>
    refine ⟨0, by rw [magnitude_zero, h0, Nat.cast_zero], ?_⟩
    rw [if_neg (by omega)]
    simp only [c, State.fpRoundInt, if_neg hm, hmode]
    exact if_pos h0
  case neg =>
    have hr : FpFmt.roundMag f mode sign n.1 1 0 = (p, true) :=
      roundMag_of_magnitude hf mode sign (Nat.pos_of_ne_zero h0) Nat.one_pos (by
        rw [Nat.cast_one, div_one, zpow_zero, mul_one, hp])
    refine ⟨p, hp, ?_⟩
    simp only [c, State.fpRoundInt, if_neg hm, hmode]
    refine (if_neg h0).trans ?_
    rw [hr]

/-- Settles O39: the integer is the one the mode names, and a number of the format. -/
theorem fpIntegerValues : Obligations.FpIntegerValues := by
  intro s f mode bits hmode hf x v sign lo up largest n hfinite hexact hup hdown
  obtain ⟨a, m, e, hx⟩ := eq_fin_of_isFinite hfinite
  obtain ⟨ha, -, -, -, he⟩ := unpack_fin (f := f) (bits := bits) hx
  have hv : v = (m : Rat) * 2 ^ e := by
    change |FpVal.rat x| = _
    rw [hx, abs_rat_fin]
  have hx : x = .fin sign m e := by rw [hx, ha]
  have hround : roundInteger mode sign m e = (n, decide (v = lo)) := roundInteger_eq hv hexact hup hdown
  have hzero (hm : m = 0) : n = 0 ∧ decide (v = lo) = true := by
    have h0 : roundInteger mode sign 0 e = (0, true) := by
      simp [roundInteger, scaledDiv, Rounding.up_zero mode sign 0 (Nat.two_pow_pos (-e).toNat)]
    rw [hm, h0] at hround
    exact ⟨(Prod.ext_iff.1 hround).1.symm, (Prod.ext_iff.1 hround).2.symm⟩
  refine ⟨?toInt, ?roundInt⟩
  case toInt =>
    rw [hx]
    by_cases hm : m = 0
    · obtain ⟨hn, hd⟩ := hzero hm
      rw [hd, hn]
      simp [State.fpToInt, hm]
    · simp only [State.fpToInt, if_neg hm, hmode, hround]
  case roundInt =>
    intro c y
    have hc : c = s.fpRoundInt f (.fin sign m e) := congrArg (s.fpRoundInt f) hx
    obtain ⟨p, hp, hcp⟩ : ∃ p, FpFmt.magnitude f p = (n : Rat) ∧
        c = if FpFmt.infBits f ≤ p then { bits := FpFmt.overflowBits f mode sign, overflow := true, inexact := true }
          else { bits := FpFmt.signed f sign p, inexact := !decide (v = lo) } := by
      by_cases hm : m = 0
      · obtain ⟨hn, hd⟩ := hzero hm
        refine ⟨0, by rw [magnitude_zero, hn, Nat.cast_zero], ?_⟩
        rw [if_neg (not_le.2 (infBits_pos he)), hd, hc, State.fpRoundInt, if_pos hm]
        rfl
      · have := State.fpRoundInt_fin hmode hf hx hm
        rw [hround, ← hc] at this
        exact this
    have hlargest : (n : Rat) ≤ largest ↔ p < FpFmt.infBits f := by
      have hpos := infBits_pos he
      rw [← hp, (magnitude_strictMono f).le_iff_le]
      omega
    have hvalid : c.invalid = false ∧ c.divZero = false ∧ c.tiny = false := by
      rw [hcp]
      split <;> exact ⟨rfl, rfl, rfl⟩
    refine ⟨hvalid.1, hvalid.2.1, hvalid.2.2, fun h => ?_, fun h => ?_⟩
    · have hlt := hlargest.1 h
      obtain ⟨hfin, hrat, hsign⟩ := unpack_signed_finite sign hlt
      rw [if_neg (not_le.2 hlt)] at hcp
      have hbits : c.bits = FpFmt.signed f sign p := by rw [hcp]
      rw [← hbits] at hfin hrat hsign
      refine ⟨hfin, ?_, hsign, by rw [hcp], by rw [hcp]; simp⟩
      have habs : |FpVal.rat y| = |(if sign then -1 else 1) * FpFmt.magnitude f p| := congrArg _ hrat
      rw [habs, hp]
      by_cases h : sign = true <;> simp [h]
    · rw [if_pos (not_lt.1 fun hlt => not_le.2 h (hlargest.2 hlt))] at hcp
      rw [hcp]
      exact ⟨rfl, rfl⟩

end Sys2Proof.Machine

/-! PROOFS about the remainder and the square root (45_floating_point.md R320, R322). -/
namespace Sys2Proof.Machine

/-! ## The remainder -/

/-- The signed remainder the model computes: of the nearest multiple, a tie to the even one (R320, D46). -/
theorem exists_nearest_multiple (top : Nat) {bot : Nat} (hbot : 0 < bot) :
    ∃ (k : Nat) (r : Int), (top : Int) = bot * k + r ∧ 2 * r.natAbs ≤ bot ∧ (2 * r.natAbs = bot → k % 2 = 0) ∧
      r.natAbs ≤ top ∧ ∀ (f : FpFmt) (a : Bool) (q : Int),
        (if top % bot = 0 then FpFmt.zeroResult f a
          else if Rounding.up .nearestEven false (top / bot) (top % bot) bot then
            FpFmt.exactResult f (!a) (bot - top % bot) q
          else FpFmt.exactResult f a (top % bot) q) =
        if r = 0 then FpFmt.zeroResult f a else FpFmt.exactResult f (a != decide (r < 0)) r.natAbs q := by
  have hlt := Nat.mod_lt top hbot
  have hdm := Nat.div_add_mod top bot
  have hle := Nat.mod_le top bot
  have hdm' : (top : Int) = bot * (top / bot : Nat) + (top % bot : Nat) := by exact_mod_cast hdm.symm
  have hup : Rounding.up .nearestEven false (top / bot) (top % bot) bot = true ↔
      bot < 2 * (top % bot) ∨ 2 * (top % bot) = bot ∧ top / bot % 2 = 1 := by
    simp [Rounding.up]
  by_cases hu : Rounding.up .nearestEven false (top / bot) (top % bot) bot = true
  case pos =>
    have hge := hup.1 hu
    refine ⟨top / bot + 1, (top % bot : Nat) - bot, by rw [hdm', Nat.cast_add, Nat.cast_one]; ring, by omega, by omega,
      by omega, fun f a q => ?_⟩
    rw [if_neg (by omega), if_pos hu, if_neg (by omega), decide_eq_true (by omega), Bool.bne_true]
    congr 1
    omega
  case neg =>
    have hge : ¬(bot < 2 * (top % bot) ∨ 2 * (top % bot) = bot ∧ top / bot % 2 = 1) := fun h => hu (hup.2 h)
    refine ⟨top / bot, (top % bot : Nat), hdm', by omega, by omega, by omega, fun f a q => ?_⟩
    rw [if_neg hu, decide_eq_false (by omega), Bool.bne_false, Int.natAbs_natCast]
    simp only [Int.natCast_eq_zero]

/-- A number in units of a smaller quantum. -/
theorem shift_mul_zpow (n : Nat) {e q : Int} (h : q ≤ e) :
    ((n * 2 ^ (e - q).toNat : Nat) : Rat) * 2 ^ q = n * 2 ^ e := by
  rw [Nat.cast_mul, mul_assoc, Nat.cast_pow, Nat.cast_two, ← zpow_natCast, ← zpow_add₀ two_ne_zero]
  congr 2
  omega

/-- The remainder of finite values: a multiple of the smaller quantum, not beyond either operand (R320). -/
theorem fpRem_fin (f : FpFmt) (a b : Bool) (m : Nat) {n : Nat} (e g : Int) (hn : n ≠ 0) :
    ∃ (k : Nat) (r : Int), FpVal.rat (.fin false m e) = FpVal.rat (.fin false n g) * k + r * 2 ^ min e g ∧
      2 * (r.natAbs : Rat) * 2 ^ min e g ≤ n * 2 ^ g ∧ (2 * (r.natAbs : Rat) * 2 ^ min e g = n * 2 ^ g → k % 2 = 0) ∧
      r.natAbs ≤ max m n ∧ (r.natAbs : Rat) * 2 ^ min e g ≤ m * 2 ^ e ∧
      fpRem f (.fin a m e) (.fin b n g) =
        if r = 0 then FpFmt.zeroResult f a else FpFmt.exactResult f (a != decide (r < 0)) r.natAbs (min e g) := by
  set q := min e g with hq
  have htop : ((m * 2 ^ (e - q).toNat : Nat) : Rat) * 2 ^ q = m * 2 ^ e := shift_mul_zpow m (min_le_left e g)
  have hbot : ((n * 2 ^ (g - q).toNat : Nat) : Rat) * 2 ^ q = n * 2 ^ g := shift_mul_zpow n (min_le_right e g)
  have hpos : 0 < n * 2 ^ (g - q).toNat := by positivity
  have hscale : (0 : Rat) < 2 ^ q := by positivity
  obtain ⟨k, r, hdiv, hhalf, htie, hle, hrem⟩ := exists_nearest_multiple (m * 2 ^ (e - q).toNat) hpos
  refine ⟨k, r, ?_, ?_, fun h => htie ?_, ?_, ?_, (if_neg hn).trans (hrem f a q)⟩
  · have hcast : ((m * 2 ^ (e - q).toNat : Nat) : Rat) = (n * 2 ^ (g - q).toNat : Nat) * k + r := by exact_mod_cast hdiv
    have hrat (m : Nat) (e : Int) : FpVal.rat (.fin false m e) = m * 2 ^ e := by simp [FpVal.rat]
    rw [hrat, hrat, ← htop, ← hbot, hcast]
    ring
  · rw [← hbot]
    exact mul_le_mul_of_nonneg_right (by exact_mod_cast hhalf) hscale.le
  · rw [← hbot] at h
    exact_mod_cast mul_right_cancel₀ hscale.ne' h
  · rcases le_total e g with h | h
    · rw [show (e - q).toNat = 0 by omega, pow_zero, Nat.mul_one] at hle
      omega
    · rw [show (g - q).toNat = 0 by omega, pow_zero, Nat.mul_one] at hhalf
      omega
  · rw [← htop]
    exact mul_le_mul_of_nonneg_right (by exact_mod_cast hle) hscale.le

/-! ## The integer square root -/

/-- One bit after the other keeps the root between its bounds. -/
theorem isqrt_bounds (n k : Nat) {r : Nat} (hlo : r * r ≤ n) (hhi : n < (r + 2 ^ k) * (r + 2 ^ k)) :
    isqrt n k r * isqrt n k r ≤ n ∧ n < (isqrt n k r + 1) * (isqrt n k r + 1) := by
  induction k generalizing r with
  | zero => exact ⟨hlo, hhi⟩
  | succ k ih =>
    rw [isqrt]
    split
    · next h => exact ih h (by rwa [Nat.add_assoc, ← Nat.two_mul, ← Nat.pow_succ'])
    · next h => exact ih hlo (not_le.1 h)

/-- The integer square root is the floor of the root (R322). -/
theorem isqrt_spec (n : Nat) :
    let r := isqrt n (n.log2 / 2 + 1) 0
    r * r ≤ n ∧ n < (r + 1) * (r + 1) := by
  refine isqrt_bounds n _ (Nat.zero_le n) ?_
  rw [Nat.zero_add, ← pow_add]
  exact Nat.lt_log2_self.trans_le (Nat.pow_le_pow_right (by decide) (by omega))

/-- The number `p` compares with `v` as it does with the square root of `x`. -/
def ComparesAsRoot (v x p : Rat) : Prop := (p < v ↔ p ^ 2 < x) ∧ (p = v ↔ p ^ 2 = x)

/-- With a last bit for the remainder, the root compares with the multiples of a quantum as the exact root does. -/
theorem root_compare {n r : Nat} (hlo : r * r ≤ n) (hhi : n < (r + 1) * (r + 1)) (w : Int) (j : Nat) :
    ComparesAsRoot (((2 * r + (decide (r * r < n)).toNat : Nat) : Rat) * 2 ^ (w - 1)) (n * (2 ^ w) ^ 2) (j * 2 ^ w) := by
  have hpos : (0 : Rat) < 2 ^ (w - 1) := by positivity
  have hp : (j : Rat) * 2 ^ w = ((2 * j : Nat) : Rat) * 2 ^ (w - 1) := by
    rw [zpow_sub_one₀ two_ne_zero]
    push_cast
    ring
  have hsq : ((j : Rat) * 2 ^ w) ^ 2 = ((j * j : Nat) : Rat) * (2 ^ w) ^ 2 := by
    push_cast
    ring
  have hsqpos : (0 : Rat) < (2 ^ w) ^ 2 := by positivity
  rw [ComparesAsRoot, hsq, mul_lt_mul_iff_of_pos_right hsqpos, mul_left_inj' hsqpos.ne', hp, mul_lt_mul_iff_of_pos_right hpos,
    mul_left_inj' hpos.ne', Nat.cast_lt, Nat.cast_inj, Nat.cast_lt, Nat.cast_inj]
  by_cases h : r * r < n
  · rw [decide_eq_true h, Bool.toNat_true]
    have hiff : j * j < n ↔ j ≤ r := ⟨fun hj => by by_contra hc; nlinarith, fun hj => by nlinarith⟩
    have hne : j * j ≠ n := fun hj => by
      rcases le_or_gt j r with hc | hc <;> nlinarith
    rw [hiff]
    exact ⟨by omega, iff_of_false (by omega) hne⟩
  · rw [decide_eq_false h, Bool.toNat_false, show n = r * r by omega, Nat.mul_self_lt_mul_self_iff, Nat.mul_self_inj]
    exact ⟨by omega, by omega⟩

end Sys2Proof.Machine

/-! PROOFS about what FREM and FSQR deliver (45_floating_point.md R320, R322). -/
namespace Sys2Proof.Machine

/-! ## The two results -/

/-- What FREM delivers for finite operands (R320). -/
theorem fpRem_of_finite {f : FpFmt} {a b : Nat} (hf : 1 ≤ f.fracBits) (he : 1 ≤ f.expBits) {sx sy : Bool} {m n : Nat}
    {e g : Int} (hx : FpFmt.unpack f a = .fin sx m e) (hy : FpFmt.unpack f b = .fin sy n g) (hn : n ≠ 0) :
    ∃ k : Int,
      let x := FpVal.rat (.fin sx m e)
      let y := FpVal.rat (.fin sy n g)
      let r := x - y * k
      let c := fpRem f (.fin sx m e) (.fin sy n g)
      2 * |r| ≤ |y| ∧ (2 * |r| = |y| → k % 2 = 0) ∧ FpVal.isFinite (FpFmt.unpack f c.bits) = true ∧
        FpVal.rat (FpFmt.unpack f c.bits) = r ∧ (r = 0 → FpFmt.signBit f c.bits = FpFmt.signBit f a) ∧ c.invalid = false := by
  obtain ⟨hsign, hm, hholds, hlt, -⟩ := unpack_fin hx
  obtain ⟨-, hn', hholds', -, -⟩ := unpack_fin hy
  obtain ⟨k, r, hdiv, hhalf, htie, hmax, hle, hc⟩ := fpRem_fin f sx sy m e g hn
  have hscale : (0 : Rat) < 2 ^ min e g := by positivity
  have hrem : FpVal.rat (.fin sx m e) - FpVal.rat (.fin sy n g) * ((if sx = sy then k else -k : Int) : Rat) =
      (if sx then -1 else 1) * ((r : Rat) * 2 ^ min e g) := by
    simp only [FpVal.rat] at hdiv ⊢
    cases sx <;> cases sy <;> simp at hdiv ⊢ <;> linarith
  have habs : |FpVal.rat (.fin sx m e) - FpVal.rat (.fin sy n g) * ((if sx = sy then k else -k : Int) : Rat)| =
      (r.natAbs : Rat) * 2 ^ min e g := by
    have h1 : |(if sx then -1 else 1 : Rat)| = 1 := by cases sx <;> simp
    rw [hrem, abs_mul, h1, one_mul, abs_mul, abs_of_pos hscale, Nat.cast_natAbs, Int.cast_abs]
  obtain ⟨p, hp⟩ := exists_magnitude_eq (f := f) (m := r.natAbs) (hmax.trans_lt (max_lt hm hn'))
    (le_min hholds.quantum hholds'.quantum)
  have hplt : p < FpFmt.infBits f := by
    refine lt_of_le_of_lt ((magnitude_strictMono f).le_iff_le.1 ?_) hlt
    rw [hp, hholds.magnitude_pattern]
    exact hle
  refine ⟨if sx = sy then k else -k, ?_⟩
  dsimp only
  rw [habs, abs_rat_fin, ← mul_assoc, hrem, hc]
  refine ⟨hhalf, fun h => ?_, ?_⟩
  · have := htie h
    split <;> omega
  · by_cases hr : r = 0
    · rw [if_pos hr, hr, Int.cast_zero, zero_mul, mul_zero]
      obtain ⟨hfinite, hrat, hbit⟩ := unpack_signed_finite sx (infBits_pos he)
      exact ⟨hfinite, by rw [← mul_zero, ← magnitude_zero f]; exact hrat, fun _ => hbit.trans hsign, rfl⟩
    · rw [if_neg hr, exactResult_of_magnitude hf _ (Int.natAbs_pos.2 hr) hp.symm]
      obtain ⟨hfinite, hrat, -⟩ := unpack_signed_finite (sx != decide (r < 0)) hplt
      refine ⟨hfinite, hrat.trans ?_, fun h0 => ?_, rfl⟩
      · rw [hp, ← mul_assoc, ← mul_assoc]
        congr 1
        rw [← sign_mul_natAbs r, ← mul_assoc]
        congr 1
        cases sx <;> cases decide (r < 0) <;> simp
      · have hne : (r : Rat) * 2 ^ min e g ≠ 0 := mul_ne_zero (by exact_mod_cast hr) hscale.ne'
        exact absurd h0 (mul_ne_zero (by cases sx <;> simp) hne)

/-- A finite value is its own remainder by an infinity (R320). -/
theorem fpRem_inf {f : FpFmt} {a : Nat} (hf : 1 ≤ f.fracBits) (he : 1 ≤ f.expBits) {sx : Bool} {m : Nat} {e : Int}
    (hx : FpFmt.unpack f a = .fin sx m e) (t : Bool) :
    let c := fpRem f (.fin sx m e) (.inf t)
    FpVal.rat (FpFmt.unpack f c.bits) = FpVal.rat (.fin sx m e) ∧ FpVal.isFinite (FpFmt.unpack f c.bits) = true ∧
      c.invalid = false := by
  intro c
  obtain ⟨p, hlt, hp⟩ := rat_eq_magnitude hx
  have hrat (q : Nat) (h : FpFmt.magnitude f q = (m : Rat) * 2 ^ e) :
      (if sx then -1 else 1) * FpFmt.magnitude f q = FpVal.rat (.fin sx m e) := by rw [h, FpVal.rat, mul_assoc]
  by_cases hm : m = 0
  · have hc : c = FpFmt.zeroResult f sx := if_pos hm
    obtain ⟨hfinite, hval, -⟩ := unpack_signed_finite sx (infBits_pos he)
    rw [hc]
    exact ⟨hval.trans (hrat 0 (by rw [magnitude_zero, hm, Nat.cast_zero, zero_mul])), hfinite, rfl⟩
  · have hc : c = _ := (if_neg hm).trans (exactResult_of_magnitude hf sx (Nat.pos_of_ne_zero hm) hp.symm)
    obtain ⟨hfinite, hval, -⟩ := unpack_signed_finite sx hlt
    rw [hc]
    exact ⟨hval.trans (hrat p hp), hfinite, rfl⟩

/-! ## The rounded root -/

/-- The square root is rounded from a number that compares with the multiples of its quantum as the exact root does, and
has more bits than the format (R322). -/
theorem State.fpSqrtPos_rounds (s : State) (f : FpFmt) {m : Nat} (e : Int) (hm : 0 < m) :
    ∃ (n : Nat) (w : Int), s.fpSqrtPos f m e = s.rounded f false n 1 (w - 1) ∧ 2 ^ (f.fracBits + 5) ≤ n ∧
      ∀ (j : Nat) (c : Int), w ≤ c → ComparesAsRoot (n * 2 ^ (w - 1)) (m * 2 ^ e) (j * 2 ^ c) := by
  set k := 2 * (f.fracBits + 4) + (e % 2).toNat with hk
  obtain ⟨hlo, hhi⟩ := isqrt_spec (m * 2 ^ k)
  set r := isqrt (m * 2 ^ k) ((m * 2 ^ k).log2 / 2 + 1) 0 with hr
  have hvalue : ((m * 2 ^ k : Nat) : Rat) * (2 ^ ((e - k) / 2)) ^ 2 = m * 2 ^ e := by
    rw [Nat.cast_mul, mul_assoc, Nat.cast_pow, Nat.cast_two, ← zpow_natCast, ← zpow_natCast, ← zpow_mul,
      ← zpow_add₀ two_ne_zero]
    congr 2
    omega
  have hroot : 2 ^ (f.fracBits + 4) ≤ r := by
    have hsq : 2 ^ (f.fracBits + 4) * 2 ^ (f.fracBits + 4) ≤ m * 2 ^ k := by
      rw [← pow_add]
      exact (Nat.pow_le_pow_right (by decide) (by omega)).trans (Nat.le_mul_of_pos_left _ hm)
    have := Nat.mul_self_lt_mul_self_iff.1 (hsq.trans_lt hhi)
    omega
  refine ⟨2 * r + (decide (r * r < m * 2 ^ k)).toNat, (e - k) / 2, rfl, ?_, fun j c hc => ?_⟩
  · rw [pow_succ]
    omega
  · rw [← hvalue, ← shift_mul_zpow j hc]
    exact root_compare hlo hhi _ _

/-- The middle between two neighbours of the format is no root of a number of the format. -/
theorem midpoint_sq_ne {f : FpFmt} (hf : 1 ≤ f.fracBits) {m m' : Nat} {e e' : Int} (hm : m < 2 ^ (f.fracBits + 1))
    (he : FpFmt.minQuantum f ≤ e) (h' : FpFmt.Holds f m' e') :
    (((2 * m' + 1 : Nat) : Rat) * 2 ^ (e' - 1)) ^ 2 ≠ m * 2 ^ e := by
  intro h
  have hq : FpFmt.minQuantum f ≤ 0 := by
    rw [FpFmt.minQuantum]
    omega
  have hsq : ((2 * m' + 1 : Nat) : Rat) ^ 2 * 2 ^ (2 * (e' - 1)) = m * 2 ^ e := by
    rw [← h, mul_pow, ← zpow_natCast, ← zpow_natCast, ← zpow_mul, mul_comm (2 : Int)]
    rfl
  rcases le_or_gt e (2 * (e' - 1)) with hle | hgt
  · obtain ⟨t, ht⟩ : ∃ t : Nat, 2 * (e' - 1) = e + t := ⟨(2 * (e' - 1) - e).toNat, by omega⟩
    have heq : (2 * m' + 1) ^ 2 * 2 ^ t = m := by
      rw [ht, zpow_add₀ two_ne_zero, mul_left_comm, mul_comm (m : Rat)] at hsq
      exact_mod_cast mul_left_cancel₀ (zpow_ne_zero _ two_ne_zero) hsq
    rcases h'.normal with hmin | hnormal
    · have := h'.quantum
      omega
    · have : (2 * m' + 1) ^ 2 ≤ m := heq ▸ Nat.le_mul_of_pos_right _ (Nat.two_pow_pos t)
      rw [pow_succ] at hm
      nlinarith
  · obtain ⟨t, ht⟩ : ∃ t : Nat, e = 2 * (e' - 1) + (t + 1 : Nat) := ⟨(e - 2 * (e' - 1)).toNat - 1, by omega⟩
    have heq : (2 * m' + 1) ^ 2 = 2 * (m * 2 ^ t) := by
      rw [ht, zpow_add₀ two_ne_zero, mul_left_comm, mul_comm _ ((2 : Rat) ^ _)] at hsq
      have := mul_left_cancel₀ (zpow_ne_zero _ two_ne_zero) hsq
      rw [zpow_natCast, pow_succ] at this
      have : (2 * m' + 1) ^ 2 = m * (2 ^ t * 2) := by exact_mod_cast this
      rw [this]
      ring
    have hodd : (2 * m' + 1) ^ 2 % 2 = 1 := by
      rw [Nat.pow_mod, show (2 * m' + 1) % 2 = 1 by omega]
    omega

/-- Whether a mode rounds a positive number up that is no tie; `nearer` says that the upper neighbour is the nearer one. -/
def Rounding.UpWithoutTie (mode : Rounding) (nearer : Prop) : Prop :=
  match mode with
  | .away | .positive => True
  | .negative | .toZero => False
  | _ => nearer

theorem Rounding.goesUp_of_no_tie (mode : Rounding) {odd : Bool} {lo v hi : Rat} (h : (lo + hi) / 2 ≠ v) :
    Rounding.goesUp mode false odd lo v hi ↔ mode.UpWithoutTie ((lo + hi) / 2 < v) := by
  have hnearer : hi - v < v - lo ↔ (lo + hi) / 2 < v := by constructor <;> intro <;> linarith
  have htie : ¬hi - v = v - lo := fun h' => h (by linarith)
  cases mode <;> simp [Rounding.goesUp, Rounding.UpWithoutTie, hnearer, htie]

/-- A root that is not beyond the square root of a number of the format is below infinity, and so is the next pattern
where the root is not exact. -/
theorem exists_root_bound {f : FpFmt} (hf : 1 ≤ f.fracBits) (he : 1 ≤ f.expBits) {lo px : Nat} (hpx : px < FpFmt.infBits f)
    (h : FpFmt.magnitude f lo ^ 2 ≤ FpFmt.magnitude f px) :
    ∃ p, p < FpFmt.infBits f ∧ lo ≤ p ∧ (FpFmt.magnitude f lo ^ 2 ≠ FpFmt.magnitude f px → lo < p) := by
  have hmono := magnitude_strictMono f
  rcases le_or_gt (FpFmt.magnitude f px) 1 with hle | hgt
  · obtain ⟨p, hp⟩ := exists_magnitude_eq (f := f) (m := 1) (e := 0) (Nat.one_lt_two_pow (by omega))
      (by rw [FpFmt.minQuantum]; omega)
    rw [Nat.cast_one, zpow_zero, mul_one] at hp
    refine ⟨p, hmono.lt_iff_lt.1 ?_, hmono.le_iff_le.1 ?_, fun hne => hmono.lt_iff_lt.1 ?_⟩
    · rw [hp, magnitude_infBits he]
      exact one_lt_zpow₀ (by norm_num) (by omega)
    · rw [hp]
      nlinarith
    · rw [hp]
      have := lt_of_le_of_ne h hne
      nlinarith
  · have hlt : lo < px := hmono.lt_iff_lt.1 (by nlinarith)
    exact ⟨px, hpx, hlt.le, fun _ => hlt⟩

/-- The neighbours of a number with more bits than the format, and their middle, compare with it as with the square root it
stands for, and the middle is no tie. -/
theorem neighbours_compareAsRoot {f : FpFmt} (hf : 1 ≤ f.fracBits) {n lo m : Nat} {w e : Int} (hn : 2 ^ (f.fracBits + 5) ≤ n)
    (hlt : (n : Rat) * 2 ^ (w - 1) < FpFmt.magnitude f (lo + 1)) (hm : m < 2 ^ (f.fracBits + 1))
    (he : FpFmt.minQuantum f ≤ e)
    (hcompare : ∀ (j : Nat) (c : Int), w ≤ c → ComparesAsRoot (n * 2 ^ (w - 1)) (m * 2 ^ e) (j * 2 ^ c)) :
    let low := FpFmt.magnitude f lo
    let high := FpFmt.magnitude f (lo + 1)
    ComparesAsRoot (n * 2 ^ (w - 1)) (m * 2 ^ e) low ∧ ComparesAsRoot (n * 2 ^ (w - 1)) (m * 2 ^ e) high ∧
      ComparesAsRoot (n * 2 ^ (w - 1)) (m * 2 ^ e) ((low + high) / 2) ∧ (low + high) / 2 ≠ n * 2 ^ (w - 1) := by
  intro low high
  obtain ⟨m', e', hholds, hm', hpattern⟩ := exists_holds_eq_pattern f lo
  have hlow : low = (m' : Rat) * 2 ^ e' := by rw [← hholds.magnitude_pattern, hpattern]
  have hhigh : high = ((m' + 1 : Nat) : Rat) * 2 ^ e' := by
    have hnext : FpFmt.Holds f (m' + 1) e' := ⟨hholds.quantum, hm', hholds.normal.imp_right fun h => Nat.le_succ_of_le h⟩
    rw [← hnext.magnitude_pattern, FpFmt.pattern, ← Nat.add_assoc]
    exact congrArg (fun p => FpFmt.magnitude f (p + 1)) hpattern.symm
  have hmid : (low + high) / 2 = ((2 * m' + 1 : Nat) : Rat) * 2 ^ (e' - 1) := by
    rw [hlow, hhigh, zpow_sub_one₀ two_ne_zero]
    push_cast
    ring
  have hw : w < e' := by
    have hpow (a : Nat) (c : Int) : ((2 ^ a : Nat) : Rat) * 2 ^ c = 2 ^ ((a : Int) + c) := by
      rw [zpow_add₀ two_ne_zero, Nat.cast_pow, Nat.cast_two, zpow_natCast]
    have hbits : (2 : Rat) ^ (((f.fracBits + 5 : Nat) : Int) + (w - 1)) < 2 ^ (((f.fracBits + 1 : Nat) : Int) + e') := by
      calc (2 : Rat) ^ (((f.fracBits + 5 : Nat) : Int) + (w - 1)) = ((2 ^ (f.fracBits + 5) : Nat) : Rat) * 2 ^ (w - 1) :=
            (hpow _ _).symm
        _ ≤ n * 2 ^ (w - 1) := by gcongr
        _ < ((m' + 1 : Nat) : Rat) * 2 ^ e' := hhigh ▸ hlt
        _ ≤ ((2 ^ (f.fracBits + 1) : Nat) : Rat) * 2 ^ e' := by gcongr; exact hm'
        _ = 2 ^ (((f.fracBits + 1 : Nat) : Int) + e') := hpow _ _
    have := (zpow_lt_zpow_iff_right₀ (by norm_num : (1 : Rat) < 2)).1 hbits
    omega
  have hmiddle := hcompare (2 * m' + 1) (e' - 1) (by omega)
  rw [hmid, hlow, hhigh]
  exact ⟨hcompare m' e' hw.le, hcompare (m' + 1) e' hw.le, hmiddle,
    fun h => midpoint_sq_ne hf hm he hholds (hmiddle.2.1 h)⟩

/-- What FSQR delivers for a positive operand in an assigned mode (R322). -/
theorem State.fpSqrtPos_of_mode {s : State} {f : FpFmt} {mode : Rounding} {a m : Nat} {e : Int}
    (hmode : s.rounding = some mode) (hf : 1 ≤ f.fracBits) (hx : FpFmt.unpack f a = .fin false m e) (hm : 0 < m) :
    let x : Rat := m * 2 ^ e
    let c := s.fpSqrtPos f m e
    ∃ lo : Nat,
      let low := FpFmt.magnitude f lo
      let high := FpFmt.magnitude f (lo + 1)
      let up := mode.UpWithoutTie (((low + high) / 2) ^ 2 < x)
      low ^ 2 ≤ x ∧ x < high ^ 2 ∧ c.invalid = false ∧ c.overflow = false ∧
        (low ^ 2 = x → c.bits = lo ∧ c.inexact = false) ∧
        (low ^ 2 ≠ x → up → c.bits = lo + 1 ∧ c.inexact = true) ∧
        (low ^ 2 ≠ x → ¬up → c.bits = lo ∧ c.inexact = true) := by
  intro x c
  obtain ⟨n, w, hc, hn, hcompare⟩ := s.fpSqrtPos_rounds f e hm
  obtain ⟨-, hmant, hholds, hxlt, he⟩ := unpack_fin hx
  obtain ⟨hlo, hhi, hexact, hr0, hr1, hr2⟩ :=
    fpRounding f mode false n 1 (w - 1) hf ((Nat.two_pow_pos _).trans_le hn) Nat.one_pos
  set lo := (FpFmt.roundMag f .toZero false n 1 (w - 1)).1
  set r := FpFmt.roundMag f mode false n 1 (w - 1)
  rw [Nat.cast_one, div_one] at hlo hhi hexact hr0 hr1 hr2
  obtain ⟨⟨hlowlt, hloweq⟩, ⟨hhighlt, hhigheq⟩, ⟨hmidlt, -⟩, hnotie⟩ :=
    neighbours_compareAsRoot hf hn hhi hmant hholds.quantum hcompare
  rw [Rounding.goesUp_of_no_tie mode hnotie, hmidlt] at hr1 hr2
  have hlowle : FpFmt.magnitude f lo ^ 2 ≤ x := hlo.lt_or_eq.elim (fun h => (hlowlt.1 h).le) fun h => (hloweq.1 h).le
  have hhighgt : x < FpFmt.magnitude f (lo + 1) ^ 2 := by
    by_contra hle
    rcases (not_lt.1 hle).lt_or_eq with h | h
    · exact absurd (hhighlt.2 h) (not_lt.2 hhi.le)
    · exact hhi.ne' (hhigheq.2 h)
  have hxmag : FpFmt.magnitude f (FpFmt.pattern f m e) = x := hholds.magnitude_pattern
  obtain ⟨p, hp, hlop, hltp⟩ := exists_root_bound hf he hxlt (hxmag ▸ hlowle)
  rw [hxmag] at hltp
  have hdelivers (h : r.1 < FpFmt.infBits f) :
      c.invalid = false ∧ c.overflow = false ∧ c.bits = r.1 ∧ c.inexact = !r.2 := by
    have hround : c = _ := hc.trans (State.rounded_of_mode hmode f false n 1 (w - 1))
    rw [if_neg (not_le.2 h)] at hround
    rw [hround]
    exact ⟨rfl, rfl, Nat.zero_add _, rfl⟩
  have hexact' : r.2 = true ↔ FpFmt.magnitude f lo ^ 2 = x := by rw [hexact, eq_comm, hloweq]
  refine ⟨lo, hlowle, hhighgt, ?_⟩
  by_cases heq : FpFmt.magnitude f lo ^ 2 = x
  case pos =>
    have hr := hr0 (hloweq.2 heq).symm
    obtain ⟨hinvalid, hoverflow, hbits, hinexact⟩ := hdelivers (by omega)
    rw [hexact'.2 heq] at hinexact
    exact ⟨hinvalid, hoverflow, fun _ => ⟨hbits.trans hr, hinexact⟩, fun h => absurd heq h, fun h => absurd heq h⟩
  case neg =>
    have hne : (n : Rat) * 2 ^ (w - 1) ≠ FpFmt.magnitude f lo := fun h => heq (hloweq.1 h.symm)
    have hlt := hltp heq
    have hr : r.1 = lo ∨ r.1 = lo + 1 := (em _).elim (fun h => .inr (hr1 hne h)) fun h => .inl (hr2 hne h)
    obtain ⟨hinvalid, hoverflow, hbits, hinexact⟩ := hdelivers (by omega)
    rw [Bool.eq_false_iff.2 fun h => heq (hexact'.1 h)] at hinexact
    exact ⟨hinvalid, hoverflow, fun h => absurd h heq, fun _ hup => ⟨hbits.trans (hr1 hne hup), hinexact⟩,
      fun _ hup => ⟨hbits.trans (hr2 hne hup), hinexact⟩⟩

/-- Settles O40. -/
theorem fpRemainderRoot : Obligations.FpRemainderRoot := by
  intro s f a b hf he x y
  refine ⟨fun hxf hyf hy0 => ?rem, fun hxf t hyt => ?inf, fun mode hmode hxf hpos => ?root, fun hxf h0 => ?zero⟩
  case rem =>
    obtain ⟨sx, m, e, hx⟩ := eq_fin_of_isFinite hxf
    obtain ⟨sy, n, g, hy⟩ := eq_fin_of_isFinite hyf
    rw [hy] at hy0
    rw [hx, hy]
    exact fpRem_of_finite hf he hx hy fun h0 => hy0 (rat_fin_eq_zero_iff.2 h0)
  case inf =>
    obtain ⟨sx, m, e, hx⟩ := eq_fin_of_isFinite hxf
    rw [hx, hyt]
    exact fpRem_inf hf he hx t
  case root =>
    obtain ⟨sx, m, e, hx⟩ := eq_fin_of_isFinite hxf
    rw [hx] at hpos
    have hm : m ≠ 0 := fun h0 => hpos.ne' (rat_fin_eq_zero_iff.2 h0)
    have hsx : sx = false := by
      by_contra h
      exact absurd (rat_fin_neg_iff.2 ⟨Bool.eq_true_of_not_eq_false h, hm⟩) (not_lt.2 hpos.le)
    subst hsx
    have hrat : FpVal.rat (.fin false m e) = (m : Rat) * 2 ^ e := by simp [FpVal.rat]
    have hroot : s.fpSqrt f (.fin false m e) = s.fpSqrtPos f m e := (if_neg hm).trans (if_neg (by decide))
    rw [hx, hrat, hroot]
    exact State.fpSqrtPos_of_mode hmode hf hx (Nat.pos_of_ne_zero hm)
  case zero =>
    obtain ⟨sx, m, e, hx⟩ := eq_fin_of_isFinite hxf
    rw [hx] at h0 ⊢
    rw [← (unpack_fin hx).1]
    exact if_pos (rat_fin_eq_zero_iff.1 h0)

end Sys2Proof.Machine
